-- ==== Sys2Proof/Word.lean ====
section
/-! DEFINITION. The two widths of CRF: 32-bit registers (00_scope.md R6, XLEN) and 8-bit bytes (20_memory.md R50). Bit 0 is the least significant bit (R7). -/

namespace Sys2Proof

/-- A register, a command word, the length and checksum fields (R6, R7). -/
abbrev Word := BitVec 32

/-- A byte of a buffer, of a record, of a type code (R50). -/
abbrev Byte := BitVec 8

end Sys2Proof
end

