-- ==== Sys2Proof/Config.lean ====
section
/-! DEFINITION. The implementation parameters of 00_scope.md R6. They are configuration, not state (10_state.md R29).
The two capacities are OPEN: a `Config` is an argument of every definition that needs one, and the machine's own
`Config.machine` is made of constants without a body. -/

namespace Sys2Proof

/-- The OPEN parameters `IN_CAP` and `PAY_CAP`, in bytes (R6, D4). -/
structure Config where
  inCap : Nat
  payCap : Nat
deriving DecidableEq, Repr

/-- The constraints of R6: `12 <= IN_CAP <= 2^32 - 1` and `IN_CAP - 8 <= PAY_CAP <= 2^32 - 1`. -/
def Config.wf (c : Config) : Bool :=
  decide (12 ≤ c.inCap) && decide (c.inCap ≤ 2 ^ 32 - 1) &&
    decide (c.inCap - 8 ≤ c.payCap) && decide (c.payCap ≤ 2 ^ 32 - 1)

/-- The reference configuration of 95_test_vectors.md: `IN_CAP = PAY_CAP = 65536` (R6). -/
def Config.reference : Config := ⟨65536, 65536⟩

/-- The capacity the implementation chose for `IN`: a constant with no body, so that no proof can see it (log 5). -/
opaque Config.chosenInCap : Nat

/-- The capacity the implementation chose for `PAY`: a constant with no body (log 5). -/
opaque Config.chosenPayCap : Nat

/-- The configuration of the machine that `step` runs: the chosen capacities where R6 allows them, the reference
ones where it does not. Every legal pair of capacities is a value of it, and it is always legal (log 5). -/
def Config.machine : Config :=
  if Config.wf ⟨Config.chosenInCap, Config.chosenPayCap⟩ then ⟨Config.chosenInCap, Config.chosenPayCap⟩
  else Config.reference

/-- `STRICT_RESET`, the reset value of `CTRL.STRICT` (R6, R25): 0 (log 8). -/
def Config.strictReset : Bool := false

/-- `SIG`, the 8-byte signature (R6, R76), a value the spec supplies from general knowledge (log 6). -/
def Config.signature : List Byte :=
  [0x89#8, 0x50#8, 0x4E#8, 0x47#8, 0x0D#8, 0x0A#8, 0x1A#8, 0x0A#8]

/-- `CRCP`: the reflected polynomial constant (R6, R100), supplied by the spec from general knowledge (log 7). -/
def Config.crcPoly : Word := 0xEDB88320#32

/-- `CRCP`: the initial accumulator (R6, R102; log 7). -/
def Config.crcInit : Word := 0xFFFFFFFF#32

/-- `CRCP`: the final exclusive-or (R6, R102; log 7). -/
def Config.crcXorOut : Word := 0xFFFFFFFF#32

end Sys2Proof
end

