-- ==== Sys2Proof/Machine/HostAction.lean ====
section
/-! DEFINITION. What the host can do to the block, one constructor per host action of 44_system.md R172 to R177, and
hardware reset (70_reset_and_hazards.md R230); and what the host gets back. -/

namespace Sys2Proof.Machine

/-- One host action: one atomic step of the total order of R58. -/
inductive HostAction where
  /-- `HostReadReg(n)`, R172. -/
  | readReg (n : Nat)
  /-- `HostWriteReg(n, v)`, R173. A write to register 0 executes the command `v` (R21). -/
  | writeReg (n : Nat) (v : Word)
  /-- `HostLoadIn(s)`, R174. -/
  | loadIn (s : List Byte)
  /-- `HostLoadPay(s)`, R175. -/
  | loadPay (s : List Byte)
  /-- `HostReadPay()`, R176. -/
  | readPay
  /-- `HostDrainOut(k)`, R177. -/
  | drainOut (k : Nat)
  /-- Hardware reset, R230. It comes from outside the block and lands between two host actions (log 9). -/
  | hardReset
deriving DecidableEq, Repr

/-- What a host action returns to the host (R172, R176, R177). -/
inductive HostAnswer where
  /-- The value of a register read (R172). -/
  | word (v : Word)
  /-- The bytes of a payload read or of a drain (R176, R177). -/
  | bytes (s : List Byte)
deriving DecidableEq, Repr

end Sys2Proof.Machine
end

