-- ==== Sys2Proof/Syntax.lean ====
section
/-! DEFINITION. The command set CRF-1 (30_encoding.md R80): one constructor per row of the opcode table. -/

namespace Sys2Proof

/-- A command. Only `CRC.BYTE` has an operand in its word, an unsigned byte (R79). Every other operand is a
register or a buffer that the command's rule names. -/
inductive Instr where
  /-- `NOP`, R170. -/
  | nop
  /-- `SYS.RESET`, R171. -/
  | sysReset
  /-- `CRC.INIT`, R106. -/
  | crcInit
  /-- `CRC.BYTE #imm8`, R107. -/
  | crcByte (b : Byte)
  /-- `CRC.TYP`, R108. -/
  | crcTyp
  /-- `CRC.PAY`, R109. -/
  | crcPay
  /-- `CRC.FIN`, R110. -/
  | crcFin
  /-- `CRC.VERIFY`, R111. -/
  | crcVerify
  /-- `TYPE.STRICT`, R125. -/
  | typeStrict
  /-- `TYPE.RAW`, R126. -/
  | typeRaw
  /-- `REC.PARSE`, R141. -/
  | recParse
  /-- `REC.BUILD`, R143. -/
  | recBuild
  /-- `REC.EMIT`, R144. -/
  | recEmit
  /-- `SIG.CHECK`, R160. -/
  | sigCheck
  /-- `SIG.EMIT`, R161. -/
  | sigEmit
deriving DecidableEq, Repr

end Sys2Proof
end

