-- ==== Sys2Proof/WellFormed.lean ====
section
/-! DEFINITION. Well-formedness of what is given to the machine: a command, and a host action. (The parameters' own
check is `Config.wf`.) -/

namespace Sys2Proof

/-- Every term of `Instr` is a command that the format `CMD32` can hold: the one operand is the byte of `CRC.BYTE`,
whose type is exactly the field `IMM8` (R78, R79), so no term of the type is ill formed. -/
def Instr.wf : Instr → Bool
  | .nop | .sysReset | .crcInit | .crcByte _ | .crcTyp | .crcPay | .crcFin | .crcVerify => true
  | .typeStrict | .typeRaw | .recParse | .recBuild | .recEmit | .sigCheck | .sigEmit => true

/-- A load is a move the host has only when the sequence fits the buffer's capacity (R174, R175). Every other action
is well formed whatever its arguments are. (A drain has a condition too, on the state: `State.enabled`.) -/
def Machine.HostAction.wf (c : Config) : Machine.HostAction → Bool
  | .loadIn s => decide (s.length ≤ c.inCap)
  | .loadPay s => decide (s.length ≤ c.payCap)
  | .readReg _ | .writeReg _ _ | .readPay | .drainOut _ | .hardReset => true

end Sys2Proof
end

