-- ==== Sys2Proof/Decode.lean ====
section
/-! DEFINITION. Decoding and encoding of the 32-bit command word (30_encoding.md sections 4 and 5). Decoding is total:
a word is one command or is illegal, by name (R81). -/

namespace Sys2Proof

/-- Field `OPC`, bits 31:24 (R78). -/
def opcField (w : Word) : BitVec 8 := w.extractLsb' 24 8

/-- Field `RSV`, bits 23:8 (R78). -/
def rsvField (w : Word) : BitVec 16 := w.extractLsb' 8 16

/-- Field `IMM8`, bits 7:0 (R78). -/
def immField (w : Word) : Byte := w.extractLsb' 0 8

/-- The two ways a word is illegal (R81). -/
inductive IllegalWord where
  /-- `OPC` is not one of the fifteen values: cause 1, whatever the other fields are. -/
  | badOpcode
  /-- `RSV` is not 0, or `IMM8` is not 0 in a command without immediate: cause 2. -/
  | badField
deriving DecidableEq, Repr

/-- The command an operation code selects, given the immediate field (R79, R80). -/
def commandOf (opc : BitVec 8) (imm : Byte) : Option Instr :=
  match opc.toNat with
  | 0x00 => some .nop
  | 0x01 => some .sysReset
  | 0x10 => some .crcInit
  | 0x11 => some (.crcByte imm)
  | 0x12 => some .crcTyp
  | 0x13 => some .crcPay
  | 0x14 => some .crcFin
  | 0x15 => some .crcVerify
  | 0x20 => some .typeStrict
  | 0x21 => some .typeRaw
  | 0x30 => some .recParse
  | 0x31 => some .recBuild
  | 0x32 => some .recEmit
  | 0x40 => some .sigCheck
  | 0x41 => some .sigEmit
  | _ => none

/-- `IMM8` is used by `CRC.BYTE` only (R78). -/
def Instr.usesImm : Instr → Bool
  | .crcByte _ => true
  | .nop | .sysReset | .crcInit | .crcTyp | .crcPay | .crcFin | .crcVerify => false
  | .typeStrict | .typeRaw | .recParse | .recBuild | .recEmit | .sigCheck | .sigEmit => false

/-- The decoder (R81): the opcode is tested first, then the reserved and unused fields. -/
def decode (w : Word) : Except IllegalWord Instr :=
  match commandOf (opcField w) (immField w) with
  | none => .error .badOpcode
  | some i =>
    if rsvField w ≠ 0 ∨ (immField w ≠ 0 ∧ i.usesImm = false) then .error .badField else .ok i

/-- The field `OPC` of a command (R80). -/
def Instr.opc : Instr → BitVec 8
  | .nop => 0x00#8
  | .sysReset => 0x01#8
  | .crcInit => 0x10#8
  | .crcByte _ => 0x11#8
  | .crcTyp => 0x12#8
  | .crcPay => 0x13#8
  | .crcFin => 0x14#8
  | .crcVerify => 0x15#8
  | .typeStrict => 0x20#8
  | .typeRaw => 0x21#8
  | .recParse => 0x30#8
  | .recBuild => 0x31#8
  | .recEmit => 0x32#8
  | .sigCheck => 0x40#8
  | .sigEmit => 0x41#8

/-- The field `IMM8` of a command: the operand of `CRC.BYTE`, 0 in every other (R78, R79). -/
def Instr.imm : Instr → Byte
  | .crcByte b => b
  | .nop | .sysReset | .crcInit | .crcTyp | .crcPay | .crcFin | .crcVerify => 0#8
  | .typeStrict | .typeRaw | .recParse | .recBuild | .recEmit | .sigCheck | .sigEmit => 0#8

/-- The encoder: `OPC ++ RSV ++ IMM8` with `RSV = 0` (R78). -/
def encode (i : Instr) : Word := i.opc ++ 0#16 ++ i.imm

/-- One row of the opcode map: a word `w` is the row's command iff `w and mask = pattern` (R80). -/
structure OpcodeRow where
  mnemonic : String
  pattern : Word
  mask : Word
deriving DecidableEq, Repr

/-- The opcode map of R80, row by row. The decoder does not read it: that the two agree is a claim. -/
def opcodeTable : List OpcodeRow :=
  [⟨"NOP", 0x00000000#32, 0xFFFFFFFF#32⟩, ⟨"SYS.RESET", 0x01000000#32, 0xFFFFFFFF#32⟩,
   ⟨"CRC.INIT", 0x10000000#32, 0xFFFFFFFF#32⟩, ⟨"CRC.BYTE", 0x11000000#32, 0xFFFFFF00#32⟩,
   ⟨"CRC.TYP", 0x12000000#32, 0xFFFFFFFF#32⟩, ⟨"CRC.PAY", 0x13000000#32, 0xFFFFFFFF#32⟩,
   ⟨"CRC.FIN", 0x14000000#32, 0xFFFFFFFF#32⟩, ⟨"CRC.VERIFY", 0x15000000#32, 0xFFFFFFFF#32⟩,
   ⟨"TYPE.STRICT", 0x20000000#32, 0xFFFFFFFF#32⟩, ⟨"TYPE.RAW", 0x21000000#32, 0xFFFFFFFF#32⟩,
   ⟨"REC.PARSE", 0x30000000#32, 0xFFFFFFFF#32⟩, ⟨"REC.BUILD", 0x31000000#32, 0xFFFFFFFF#32⟩,
   ⟨"REC.EMIT", 0x32000000#32, 0xFFFFFFFF#32⟩, ⟨"SIG.CHECK", 0x40000000#32, 0xFFFFFFFF#32⟩,
   ⟨"SIG.EMIT", 0x41000000#32, 0xFFFFFFFF#32⟩]

/-- The mnemonic of a command, as the opcode map spells it (R80). -/
def Instr.mnemonic : Instr → String
  | .nop => "NOP"
  | .sysReset => "SYS.RESET"
  | .crcInit => "CRC.INIT"
  | .crcByte _ => "CRC.BYTE"
  | .crcTyp => "CRC.TYP"
  | .crcPay => "CRC.PAY"
  | .crcFin => "CRC.FIN"
  | .crcVerify => "CRC.VERIFY"
  | .typeStrict => "TYPE.STRICT"
  | .typeRaw => "TYPE.RAW"
  | .recParse => "REC.PARSE"
  | .recBuild => "REC.BUILD"
  | .recEmit => "REC.EMIT"
  | .sigCheck => "SIG.CHECK"
  | .sigEmit => "SIG.EMIT"

/-- The command word whose low `nbits` bits are those of `w`, every bit above them 0. -/
def tableWord (nbits w : Nat) : Word := BitVec.ofNat 32 (w % 2 ^ nbits)

/-- The command the decoder reads from an opcode-table row's bits. A command is one 32-bit word, bit 0 its least
significant bit (R7, R78), so the table's numbering is the word's own; a longer row is no command. -/
def decodeTableWord (nbits w : Nat) : Option Instr :=
  if nbits ≤ 32 then
    match decode (tableWord nbits w) with
    | .ok i => some i
    | .error _ => none
  else none

end Sys2Proof
end

