-- ==== Sys2Proof/Machine/State.lean ====
section
/-! DEFINITION. The machine's state (10_state.md R10, R11, R22, R25, R27), its state after reset (R30, R230), and the
reasons a step can stop. -/

namespace Sys2Proof.Machine

/-- Byte storage with offsets: a list of (offset, byte) pairs. Canonical form: `Memory.wf` (Machine/Ops.lean). -/
abbrev Memory := List Host.Cell

/-- The machine. A register is one field; `STATUS` and `CTRL` are their stored bits, their words are computed
(Machine/Flags.lean; log 10); `CMD` stores nothing (R21) and has no field. -/
structure State where
  /-- `STATUS.ERR`, bits 3:0 (R22, R201). -/
  err : BitVec 4
  /-- `STATUS.CAUSE`, bits 7:4 (R22, R202). -/
  cause : BitVec 4
  /-- `STATUS.REC`, bit 8: a record is held (R22, R23). -/
  held : Bool
  /-- `STATUS.TOK`, bit 9: `TYP` passed the letter test (R22, R23). -/
  tok : Bool
  /-- `STATUS.CSRC`, bit 10: `CRC` was read from the input (R22, R23). -/
  csrc : Bool
  /-- `STATUS.CRCOK`, bit 11: the most recent comparison of `CRC` with `CCRC` (R22, R23). -/
  crcok : Bool
  /-- `CTRL.STRICT`, bit 0 of `CTRL` (R25). -/
  strict : Bool
  /-- `TIN`, register 3 (R17). -/
  tin : Word
  /-- `TYP`, register 4 (R13). -/
  typ : Word
  /-- `LEN`, register 5 (R12). -/
  len : Word
  /-- `CRC`, register 6 (R14). -/
  crc : Word
  /-- `CCRC`, register 7 (R15). -/
  ccrc : Word
  /-- `ACC`, register 8 (R16). -/
  acc : Word
  /-- `RP`, register 9 (R18). -/
  rp : Word
  /-- `IN_LEN`, register 10 (R19). -/
  inLen : Word
  /-- `PAY_LEN`, register 11 (R19). -/
  payLen : Word
  /-- `EPOS`, register 12 (R26). -/
  epos : Word
  /-- The storage of buffer `IN` (R27). Its valid part is `IN[0..IN_LEN)`. -/
  inMem : Memory
  /-- The storage of buffer `PAY` (R27). Its valid part is `PAY[0..PAY_LEN)`. -/
  payMem : Memory
  /-- The output stream `OUT`, first byte first (R27). -/
  out : List Byte
  /-- MODEL'S OWN: what the host will do, oldest first (R58, R240; log 1). -/
  pending : List HostAction
  /-- MODEL'S OWN: what the host has been given, oldest first (R172, R176, R177, R240; log 2). -/
  answers : List HostAnswer
deriving DecidableEq, Repr

/-- The state right after hardware reset (R30, R230): all zero but `ACC`, `CTRL.STRICT = STRICT_RESET`, `OUT` empty.
The storage of `IN` and `PAY` is unspecified and unreadable, since both lengths are 0: nothing is listed (log 4). The
model's own fields are empty: nothing is asked of the block yet (log 1, log 2). -/
def State.reset : State where
  err := 0#4
  cause := 0#4
  held := false
  tok := false
  csrc := false
  crcok := false
  strict := Config.strictReset
  tin := 0#32
  typ := 0#32
  len := 0#32
  crc := 0#32
  ccrc := 0#32
  acc := 0xFFFFFFFF#32
  rp := 0#32
  inLen := 0#32
  payLen := 0#32
  epos := 0#32
  inMem := []
  payMem := []
  out := []
  pending := []
  answers := []

/-- No step of this machine faults: every command ends by committing or by an error report, which is a next state, and
the block never stops (R200, R217). So there is no constructor (log 18). -/
inductive Fault where
deriving DecidableEq, Repr

/-- Why a step has no meaning. -/
inductive Refusal where
  /-- A command without a meaning in this model, by its mnemonic. Raised by no arm: all fifteen have theirs. Safe. -/
  | notModelled (mnemonic : String)
  /-- The host's next action is not enabled: a load longer than the buffer's capacity (R174, R175) or a drain of more
  bytes than `OUT` holds (R177). The host has no such move. Raised by `step` and the host actions. Safe (log 3). -/
  | hostMoveNotEnabled
deriving DecidableEq, Repr

end Sys2Proof.Machine
end

