-- ==== Sys2Proof/Machine/Ops.lean ====
section
/-! DEFINITION. The named operations over byte storage and over the state. Every meaning is written with these: how a
byte is read and written, how a command fails (the one exception entry of CRF, 60_exceptions.md R214), how it commits
(R200), and the groups of writes the command rules share. -/

namespace Sys2Proof.Machine

/-! ### Byte storage (20_memory.md R50, R57; 00_scope.md R8) -/

/-- What an unlisted byte of storage reads as. No rule ever reads one (log 4). -/
def Memory.blank : Byte := 0x00#8

/-- The canonical form: offsets strictly rising, and no entry equal to what an unlisted offset reads as. -/
abbrev Memory.wf (m : Memory) : Prop :=
  m.Pairwise (fun c d => c.1 < d.1) ∧ ∀ c ∈ m, c.2 ≠ Memory.blank

/-- `B[a]`, the byte at offset `a` (R8). -/
def Memory.read : Memory → Nat → Byte
  | [], _ => Memory.blank
  | (k, v) :: r, a => if k = a then v else Memory.read r a

/-- `B[a] <- b`, keeping the canonical form. -/
def Memory.write : Memory → Nat → Byte → Memory
  | [], a, b => if b = Memory.blank then [] else [(a, b)]
  | (k, v) :: r, a, b =>
    if a < k then
      if b = Memory.blank then (k, v) :: r else (a, b) :: (k, v) :: r
    else if a = k then
      if b = Memory.blank then r else (a, b) :: r
    else (k, v) :: Memory.write r a b

/-- `MemWrite(B, a, |s|, s)`: byte by byte, in increasing offset order (R8, R57). -/
def Memory.writeBytes (m : Memory) (a : Nat) : List Byte → Memory
  | [] => m
  | b :: s => Memory.writeBytes (m.write a b) (a + 1) s

/-- `MemRead(B, a, n)`, the byte sequence `B[a..a+n)` (R8). -/
def Memory.slice (m : Memory) (a : Nat) : Nat → List Byte
  | 0 => []
  | n + 1 => m.read a :: Memory.slice m (a + 1) n

/-- Every listed byte lies below the buffer's capacity (R50). -/
abbrev Memory.within (m : Memory) (cap : Nat) : Prop := ∀ c ∈ m, c.1 < cap

/-! ### Failing and committing (R200, R201, R202, R214) -/

/-- The error names of R201, those only the host raises among them. -/
inductive ErrorName where
  | invalidTypeByte | reservedBitSet | tooLong | malformedChunk | truncatedPayload
  | badSignature | chunkNotFound | notUtf8 | checksumMismatch | illegalCommand
deriving DecidableEq, Repr

/-- The codes of R201, as `STATUS.ERR` holds them. -/
def ErrorName.code : ErrorName → BitVec 4
  | .invalidTypeByte => 1#4
  | .reservedBitSet => 2#4
  | .tooLong => 3#4
  | .malformedChunk => 4#4
  | .truncatedPayload => 5#4
  | .badSignature => 6#4
  | .chunkNotFound => 7#4
  | .notUtf8 => 8#4
  | .checksumMismatch => 9#4
  | .illegalCommand => 15#4

/-- The failures a command can end in: the error names the block raises (R203 to R209), each with its cause. -/
inductive Failure where
  /-- R203. -/
  | invalidTypeByte
  /-- R204. -/
  | reservedBitSet
  /-- `MalformedChunk` cause 1, `ShortHeader`, R205. -/
  | shortHeader
  /-- `MalformedChunk` cause 2, `InvalidTypeCode`, R205. -/
  | invalidTypeCode
  /-- `MalformedChunk` cause 3, `PartialChecksum`, R205. -/
  | partialChecksum
  /-- R206. -/
  | truncatedPayload
  /-- R207. -/
  | badSignature
  /-- R208. -/
  | checksumMismatch
  /-- `IllegalCommand` cause 1, `BadOpcode`, R209. -/
  | badOpcode
  /-- `IllegalCommand` cause 2, `BadField`, R209. -/
  | badField
  /-- `IllegalCommand` cause 3, `BadState`, R209. -/
  | badState
deriving DecidableEq, Repr

/-- The error name a failure is reported under (R202, R203 to R209). -/
def Failure.name : Failure → ErrorName
  | .invalidTypeByte => .invalidTypeByte
  | .reservedBitSet => .reservedBitSet
  | .shortHeader | .invalidTypeCode | .partialChecksum => .malformedChunk
  | .truncatedPayload => .truncatedPayload
  | .badSignature => .badSignature
  | .checksumMismatch => .checksumMismatch
  | .badOpcode | .badField | .badState => .illegalCommand

/-- The cause code of a failure, 0 where R202 gives none. -/
def Failure.causeCode : Failure → BitVec 4
  | .shortHeader | .badOpcode => 1#4
  | .invalidTypeCode | .badField => 2#4
  | .partialChecksum | .badState => 3#4
  | .invalidTypeByte | .reservedBitSet | .truncatedPayload | .badSignature | .checksumMismatch => 0#4

/-- `raise E(c)`, taking CRF's exception (R214): the report is written, `EPOS <- RP`, and every other register, every
other field of `STATUS`, `IN`, `PAY` and `OUT` are as before the command. There is no handler, and nothing to return
from: the block is ready for the next command (R215). -/
def State.fail (s : State) (f : Failure) : State :=
  { s with err := f.name.code, cause := f.causeCode, epos := s.rp }

/-- A command commits: `STATUS.ERR <- 0`, `STATUS.CAUSE <- 0` (R200). `EPOS` keeps its value (R26). -/
def State.commit (s : State) : State :=
  { s with err := 0#4, cause := 0#4 }

/-! ### The shared groups of writes -/

/-- `ACC <- v` (R106 to R109). -/
def State.setAcc (s : State) (v : Word) : State := { s with acc := v }

/-- `CCRC <- v` (R110). -/
def State.setCcrc (s : State) (v : Word) : State := { s with ccrc := v }

/-- `STATUS.CRCOK <- b` (R111). -/
def State.setCrcok (s : State) (b : Bool) : State := { s with crcok := b }

/-- `STATUS.REC <- 0 ; STATUS.CSRC <- 0 ; STATUS.CRCOK <- 0`: the held record is dropped (R23, R125, R175). -/
def State.dropRecord (s : State) : State := { s with held := false, csrc := false, crcok := false }

/-- `TYP <- v ; STATUS.TOK <- 1` (R125, R126). -/
def State.holdTypeCode (s : State) (v : Word) : State := { s with typ := v, tok := true }

/-- `RP <- RP + n` (R141 step 8, R160). -/
def State.advance (s : State) (n : Nat) : State := { s with rp := s.rp + BitVec.ofNat 32 n }

/-- `OUT <- OUT ++ b` (R144, R161). -/
def State.emit (s : State) (b : List Byte) : State := { s with out := s.out ++ b }

/-- `PAY[0..|b|) <- b ; PAY_LEN <- |b|` (R141 step 8, R175). -/
def State.storePayload (s : State) (b : List Byte) : State :=
  { s with payMem := s.payMem.writeBytes 0 b, payLen := BitVec.ofNat 32 b.length }

/-- `IN[0..|b|) <- b ; IN_LEN <- |b| ; RP <- 0` (R174). -/
def State.storeInput (s : State) (b : List Byte) : State :=
  { s with inMem := s.inMem.writeBytes 0 b, inLen := BitVec.ofNat 32 b.length, rp := 0#32 }

/-- Every register takes its reset value (R171, R230). The storage of `IN` and `PAY` is left as it is, unreadable with
both lengths 0 (R171; log 4), `OUT` is kept (R171), and the host's side is the host's. -/
def State.resetRegisters (s : State) : State :=
  { State.reset with
    inMem := s.inMem, payMem := s.payMem, out := s.out, pending := s.pending, answers := s.answers }

/-- `OUT` emptied, as hardware reset leaves it (R230). -/
def State.clearOut (s : State) : State := { s with out := [] }

/-- `OUT` without its first `k` bytes (R177). -/
def State.dropOut (s : State) (k : Nat) : State := { s with out := s.out.drop k }

/-- `CTRL.STRICT <- b` (R25, R173). -/
def State.setStrict (s : State) (b : Bool) : State := { s with strict := b }

/-- `TIN <- v` (R173). -/
def State.setTin (s : State) (v : Word) : State := { s with tin := v }

/-- The host is given `x` (R172, R176, R177; log 2). -/
def State.answer (s : State) (x : HostAnswer) : State := { s with answers := s.answers ++ [x] }

/-- The host's next action is taken from the front of what it will do (log 1). -/
def State.setPending (s : State) (p : List HostAction) : State := { s with pending := p }

/-- One thing after another: the second runs from what the first leaves, and a stop stays a stop. -/
def andThen {α β : Type} (o : Host.Outcome α Fault Refusal) (f : α → Host.Outcome β Fault Refusal) :
    Host.Outcome β Fault Refusal :=
  match o with
  | .next a => f a
  | .fault r => .fault r
  | .refused r => .refused r

end Sys2Proof.Machine
end

