-- ==== Sys2Proof/Machine/Operands.lean ====
section
/-! DEFINITION. Where commands find their operands, and the byte order of the multi-byte fields: `be32` and
`bytes_be32` are the only conversions (20_memory.md R53). -/

namespace Sys2Proof.Machine

/-- `be32(s)`, big-endian, for a 4-byte sequence (00_scope.md R8). No rule applies it to another length (log 16). -/
def be32 : List Byte → Word
  | [a, b, c, d] => a ++ b ++ c ++ d
  | _ => 0#32

/-- `bytes_be32(v)` (R8): `v[31:24], v[23:16], v[15:8], v[7:0]`. -/
def bytesBe32 (v : Word) : List Byte :=
  [v.extractLsb' 24 8, v.extractLsb' 16 8, v.extractLsb' 8 8, v.extractLsb' 0 8]

/-- `s[o..o+n)`: `n` bytes of a sequence from index `o`, as far as present. -/
def field (s : List Byte) (o n : Nat) : List Byte := (s.drop o).take n

/-- `TYPBYTES`, the type bytes in `TYP` (R13). -/
def State.typeBytes (s : State) : List Byte := bytesBe32 s.typ

/-- `IN[RP..IN_LEN)`, the bytes of the input not yet consumed (R18). It is empty when `RP >= IN_LEN` (log 11). -/
def State.remaining (s : State) : List Byte := s.inMem.slice s.rp.toNat (s.inLen.toNat - s.rp.toNat)

/-- `PAY[0..PAY_LEN)`, the valid part of the payload buffer (R27). -/
def State.payload (s : State) : List Byte := s.payMem.slice 0 s.payLen.toNat

/-- `PAY[0..LEN)`, the payload of the held record (R22, R111, R144). -/
def State.heldPayload (s : State) : List Byte := s.payMem.slice 0 s.len.toNat

/-- The bytes of the held record on the wire: length, type, payload, checksum (R70, R144). -/
def State.recordBytes (s : State) : List Byte :=
  bytesBe32 s.len ++ s.typeBytes ++ s.heldPayload ++ bytesBe32 s.crc

end Sys2Proof.Machine
end

