-- ==== Sys2Proof/Machine/CrcEngine.lean ====
section
/-! DEFINITION. The CRC-32 (ISO-HDLC) function (40_crc.md R100 to R103), with the parameters of `CRCP` (R6, log 7). -/

namespace Sys2Proof.Machine

/-- One of the eight shifts of `crc_step`: bit 0 chooses the exclusive-or, the shift is logical (R100). -/
def crcShift (a : Word) : Word :=
  if a.getLsbD 0 then (a >>> 1) ^^^ Config.crcPoly else a >>> 1

/-- `crc_step(a, b)` (R100). -/
def crcStep (a : Word) (b : Byte) : Word := Nat.repeat crcShift 8 (a ^^^ b.zeroExtend 32)

/-- `crc_acc(a, s)`, the bytes in increasing index order (R101). -/
def crcAcc (a : Word) (s : List Byte) : Word := s.foldl crcStep a

/-- `crc32(s)` (R102). -/
def crc32 (s : List Byte) : Word := crcAcc Config.crcInit s ^^^ Config.crcXorOut

/-- The table of R103, `T[i] = crc_step(0, i)`. The bitwise form is the definition, this is the other way to compute it. -/
def crcTable (i : Byte) : Word := crcStep 0#32 i

end Sys2Proof.Machine
end

