-- ==== Sys2Proof/Machine/Crc.lean ====
section
/-! DEFINITION. The CRC commands (40_crc.md R106 to R111). -/

namespace Sys2Proof.Machine

/-- `CRC.INIT` (R106). -/
def execCrcInit (s : State) : Host.Outcome State Fault Refusal :=
  .next (s.setAcc Config.crcInit).commit

/-- `CRC.BYTE #b` (R107). -/
def execCrcByte (b : Byte) (s : State) : Host.Outcome State Fault Refusal :=
  .next (s.setAcc (crcStep s.acc b)).commit

/-- `CRC.TYP` (R108): no check of `STATUS.TOK`. -/
def execCrcTyp (s : State) : Host.Outcome State Fault Refusal :=
  .next (s.setAcc (crcAcc s.acc s.typeBytes)).commit

/-- `CRC.PAY` (R109): no check of `STATUS.REC`. -/
def execCrcPay (s : State) : Host.Outcome State Fault Refusal :=
  .next (s.setAcc (crcAcc s.acc s.payload)).commit

/-- `CRC.FIN` (R110): `ACC` and `CRCOK` are kept. -/
def execCrcFin (s : State) : Host.Outcome State Fault Refusal :=
  .next (s.setCcrc (s.acc ^^^ Config.crcXorOut)).commit

/-- The engine's run over a record's type bytes and payload that `CRC.VERIFY`, `REC.BUILD` and `REC.PARSE` share:
`ACC` gets the accumulator and `CCRC` its complement (R105, R233). -/
def State.runCrc (s : State) (a : Word) : State := (s.setAcc a).setCcrc (a ^^^ Config.crcXorOut)

/-- `CRC.VERIFY` (R111): a mismatch is no error, it is reported in `CRCOK` (C9). -/
def execCrcVerify (s : State) : Host.Outcome State Fault Refusal :=
  if s.held then
    let a := crcAcc Config.crcInit (s.typeBytes ++ s.heldPayload)
    .next ((s.runCrc a).setCrcok (decide (s.crc = a ^^^ Config.crcXorOut))).commit
  else .next (s.fail .badState)

end Sys2Proof.Machine
end

