-- ==== Sys2Proof/Machine/Flags.lean ====
section
/-! DEFINITION. The type-code predicates (41_typecode.md R120 to R123), the class flags, which are functions of `TYP`
(10_state.md R24), the words of `STATUS` (R22) and `CTRL` (R25), and the host's view of the register file (R11, R172). -/

namespace Sys2Proof.Machine

/-- `is_letter(b)`: 65 to 90 or 97 to 122 (R120). -/
def isLetter (b : Byte) : Bool :=
  (decide (65 ≤ b.toNat) && decide (b.toNat ≤ 90)) || (decide (97 ≤ b.toNat) && decide (b.toNat ≤ 122))

/-- `letters(t)`: every type byte is a letter (R120). -/
def letters (t : List Byte) : Bool := t.all isLetter

/-- Type byte `i` of a packed type code, byte 0 in bits 31:24 (R13). -/
def typeByte (v : Word) : Fin 4 → Byte
  | 0 => v.extractLsb' 24 8
  | 1 => v.extractLsb' 16 8
  | 2 => v.extractLsb' 8 8
  | 3 => v.extractLsb' 0 8

/-- `is_critical`: bit 5 of byte 0 clear (R122). -/
def isCritical (v : Word) : Bool := !(typeByte v 0).getLsbD 5

/-- `is_public`: bit 5 of byte 1 clear (R122). -/
def isPublic (v : Word) : Bool := !(typeByte v 1).getLsbD 5

/-- `is_reserved_bit_valid`, the reserved-bit rule: bit 5 of byte 2 clear (R121, R122). -/
def rsvOk (v : Word) : Bool := !(typeByte v 2).getLsbD 5

/-- `is_safe_to_copy`: bit 5 of byte 3 set (R122). -/
def isSafeToCopy (v : Word) : Bool := (typeByte v 3).getLsbD 5

/-- `is_valid`: letters, and the reserved-bit rule holds (R123). -/
def isValid (v : Word) : Bool := letters (bytesBe32 v) && rsvOk v

/-- The word of `STATUS`, register 1 (R22): stored bits, class flags of the current `TYP` (R24), bits 31:17 zero. -/
def State.status (s : State) : Word :=
  0#15 ++ BitVec.ofBool (isValid s.typ) ++ BitVec.ofBool (isSafeToCopy s.typ) ++ BitVec.ofBool (rsvOk s.typ) ++
    BitVec.ofBool (isPublic s.typ) ++ BitVec.ofBool (isCritical s.typ) ++ BitVec.ofBool s.crcok ++
    BitVec.ofBool s.csrc ++ BitVec.ofBool s.tok ++ BitVec.ofBool s.held ++ s.cause ++ s.err

/-- The word of `CTRL`, register 2 (R25): `STRICT` in bit 0, bits 31:1 zero. -/
def State.ctrl (s : State) : Word := 0#31 ++ BitVec.ofBool s.strict

/-- `x[n]`, the value a host read of register `n` returns (R11, R172): 0 for `CMD` and for a number above 12 (R32). -/
def State.readReg (s : State) (n : Nat) : Word :=
  match n with
  | 1 => s.status
  | 2 => s.ctrl
  | 3 => s.tin
  | 4 => s.typ
  | 5 => s.len
  | 6 => s.crc
  | 7 => s.ccrc
  | 8 => s.acc
  | 9 => s.rp
  | 10 => s.inLen
  | 11 => s.payLen
  | 12 => s.epos
  | _ => 0#32

end Sys2Proof.Machine
end

