-- ==== Sys2Proof/Machine/Record.lean ====
section
/-! DEFINITION. The record framer (42_record.md R141, R143, R144). -/

namespace Sys2Proof.Machine

/-- What a successful parse found (R141 steps 2 to 7), before anything is written. -/
structure Parsed where
  len : Word
  typ : Word
  pay : List Byte
  /-- `crc`: the stored checksum, or the computed one where none was present. -/
  crc : Word
  /-- `a`: the accumulator over the type bytes and the payload. -/
  acc : Word
  /-- `csrc`: the checksum was read from the input. -/
  csrc : Bool
  /-- `used`: how many bytes the record takes. -/
  used : Nat
deriving DecidableEq, Repr

/-- Steps 2 to 7 of R141, on the bytes `inp = IN[p..IN_LEN)`: offset `p + k` of the rule is index `k` here, and `avail`
is `|inp|`. All lengths are natural numbers, and `len` is compared with `avail - 8` (R148). -/
def parseRecord (strict : Bool) (inp : List Byte) : Except Failure Parsed :=
  if inp.length < 8 then .error .shortHeader
  else if letters (field inp 4 4) = false then .error .invalidTypeCode
  else
    let len := be32 (field inp 0 4)
    let t := field inp 4 4
    if inp.length - 8 < len.toNat then .error .truncatedPayload
    else
      let pay := field inp 8 len.toNat
      let a := crcAcc Config.crcInit (t ++ pay)
      let comp := a ^^^ Config.crcXorOut
      let rest := inp.length - 8 - len.toNat
      if 4 ≤ rest then
        let stored := be32 (field inp (8 + len.toNat) 4)
        if strict = true ∧ stored ≠ comp then .error .checksumMismatch
        else .ok ⟨len, be32 t, pay, stored, a, true, 12 + len.toNat⟩
      else if rest = 0 then .ok ⟨len, be32 t, pay, comp, a, false, 8 + len.toNat⟩
      else .error .partialChecksum

/-- `LEN <- l ; CRC <- c ; STATUS.REC <- 1 ; STATUS.CSRC <- src ; STATUS.CRCOK <- ok`: a record is held (R141 step 8,
R143). -/
def State.holdRecord (s : State) (l c : Word) (src ok : Bool) : State :=
  { s with len := l, crc := c, held := true, csrc := src, crcok := ok }

/-- Step 8 of R141: the writes of a successful parse. -/
def State.commitParse (s : State) (r : Parsed) : State :=
  ((((((s.holdTypeCode r.typ).storePayload r.pay).runCrc r.acc).holdRecord r.len r.crc r.csrc
    (decide (r.crc = r.acc ^^^ Config.crcXorOut))).advance r.used)).commit

/-- `REC.PARSE` (R141, R142). -/
def execRecParse (s : State) : Host.Outcome State Fault Refusal :=
  match parseRecord s.strict s.remaining with
  | .error f => .next (s.fail f)
  | .ok r => .next (s.commitParse r)

/-- `REC.BUILD` (R143): the reserved-bit rule is not tested. -/
def execRecBuild (s : State) : Host.Outcome State Fault Refusal :=
  if s.tok then
    let a := crcAcc Config.crcInit (s.typeBytes ++ s.payload)
    .next ((s.runCrc a).holdRecord s.payLen (a ^^^ Config.crcXorOut) false true).commit
  else .next (s.fail .badState)

/-- `REC.EMIT` (R144): the checksum emitted is whatever `CRC` holds. -/
def execRecEmit (s : State) : Host.Outcome State Fault Refusal :=
  if s.held then .next (s.emit s.recordBytes).commit
  else .next (s.fail .badState)

end Sys2Proof.Machine
end

