-- ==== Sys2Proof/Machine/Stream.lean ====
section
/-! DEFINITION. The stream commands (43_stream.md R160, R161). -/

namespace Sys2Proof.Machine

/-- `SIG.CHECK` (R160): fewer than 8 bytes, or any of the 8 differing, is `BadSignature` (D15). -/
def execSigCheck (s : State) : Host.Outcome State Fault Refusal :=
  if s.inLen.toNat - s.rp.toNat < 8 then .next (s.fail .badSignature)
  else if s.inMem.slice s.rp.toNat 8 ≠ Config.signature then .next (s.fail .badSignature)
  else .next (s.advance 8).commit

/-- `SIG.EMIT` (R161). -/
def execSigEmit (s : State) : Host.Outcome State Fault Refusal :=
  .next (s.emit Config.signature).commit

end Sys2Proof.Machine
end

