-- ==== Sys2Proof/Machine/System.lean ====
section
/-! DEFINITION. The system commands (44_system.md R170, R171). -/

namespace Sys2Proof.Machine

/-- `NOP` (R170): its only effect is to clear the error report. -/
def execNop (s : State) : Host.Outcome State Fault Refusal :=
  .next s.commit

/-- `SYS.RESET` (R171, R231). -/
def execSysReset (s : State) : Host.Outcome State Fault Refusal :=
  .next s.resetRegisters

end Sys2Proof.Machine
end

