-- ==== Sys2Proof/Machine/TypeCode.lean ====
section
/-! DEFINITION. The type-code commands (41_typecode.md R125, R126). -/

namespace Sys2Proof.Machine

/-- `TYPE.STRICT` (R125): the letter test first, then the reserved-bit rule (D17). -/
def execTypeStrict (s : State) : Host.Outcome State Fault Refusal :=
  if letters (bytesBe32 s.tin) = false then .next (s.fail .invalidTypeByte)
  else if rsvOk s.tin = false then .next (s.fail .reservedBitSet)
  else .next (s.holdTypeCode s.tin).dropRecord.commit

/-- `TYPE.RAW` (R126): the letter test only. -/
def execTypeRaw (s : State) : Host.Outcome State Fault Refusal :=
  if letters (bytesBe32 s.tin) = false then .next (s.fail .invalidTypeByte)
  else .next (s.holdTypeCode s.tin).dropRecord.commit

end Sys2Proof.Machine
end

