-- ==== Sys2Proof/Machine/Dispatch.lean ====
section
/-! DEFINITION. One arm per command of the opcode map (30_encoding.md R80). -/

namespace Sys2Proof.Machine

/-- What a command does to the machine (R80). -/
def exec (i : Instr) (s : State) : Host.Outcome State Fault Refusal :=
  match i with
  | .nop => Sys2Proof.Machine.execNop s
  | .sysReset => Sys2Proof.Machine.execSysReset s
  | .crcInit => Sys2Proof.Machine.execCrcInit s
  | .crcByte b => Sys2Proof.Machine.execCrcByte b s
  | .crcTyp => Sys2Proof.Machine.execCrcTyp s
  | .crcPay => Sys2Proof.Machine.execCrcPay s
  | .crcFin => Sys2Proof.Machine.execCrcFin s
  | .crcVerify => Sys2Proof.Machine.execCrcVerify s
  | .typeStrict => Sys2Proof.Machine.execTypeStrict s
  | .typeRaw => Sys2Proof.Machine.execTypeRaw s
  | .recParse => Sys2Proof.Machine.execRecParse s
  | .recBuild => Sys2Proof.Machine.execRecBuild s
  | .recEmit => Sys2Proof.Machine.execRecEmit s
  | .sigCheck => Sys2Proof.Machine.execSigCheck s
  | .sigEmit => Sys2Proof.Machine.execSigEmit s

end Sys2Proof.Machine
end

