-- ==== Sys2Proof/Machine/HostActions.lean ====
section
/-! DEFINITION. What each host action does (44_system.md R172 to R177, 10_state.md R21, R32), what a word written to
`CMD` does (R21, R81, R209), and hardware reset (70_reset_and_hazards.md R230). -/

namespace Sys2Proof.Machine

/-- The failure an illegal word is reported as (R81, R209). -/
def illegalFailure : IllegalWord → Failure
  | .badOpcode => .badOpcode
  | .badField => .badField

/-- A word written to `CMD` (R21): the command it encodes is executed, or nothing is executed and `IllegalCommand` is
reported (R81, R209). -/
def runCommand (w : Word) (s : State) : Host.Outcome State Fault Refusal :=
  match decode w with
  | .ok i => exec i s
  | .error e => .next (s.fail (illegalFailure e))

/-- `HostWriteReg(n, v)` (R173): `CMD`, `CTRL` and `TIN` are the registers the host may write, a write to any other
number has no effect (R32). -/
def hostWriteReg (n : Nat) (v : Word) (s : State) : Host.Outcome State Fault Refusal :=
  match n with
  | 0 => runCommand v s
  | 2 => .next (s.setStrict (v.getLsbD 0))
  | 3 => .next (s.setTin v)
  | _ => .next s

/-- `HostReadReg(n)` (R172): the host is given `x[n]`, and no register changes. -/
def hostReadReg (n : Nat) (s : State) : Host.Outcome State Fault Refusal :=
  .next (s.answer (.word (s.readReg n)))

/-- `HostLoadIn(s)` (R174): a sequence longer than `IN_CAP` cannot be loaded. -/
def hostLoadIn (c : Config) (b : List Byte) (s : State) : Host.Outcome State Fault Refusal :=
  if b.length ≤ c.inCap then .next (s.storeInput b) else .refused .hostMoveNotEnabled

/-- `HostLoadPay(s)` (R175): the held record is dropped, and a sequence longer than `PAY_CAP` cannot be loaded. -/
def hostLoadPay (c : Config) (b : List Byte) (s : State) : Host.Outcome State Fault Refusal :=
  if b.length ≤ c.payCap then .next (s.storePayload b).dropRecord else .refused .hostMoveNotEnabled

/-- `HostReadPay()` (R176): the host is given `PAY[0..PAY_LEN)`. -/
def hostReadPay (s : State) : Host.Outcome State Fault Refusal :=
  .next (s.answer (.bytes s.payload))

/-- `HostDrainOut(k)` (R177): the host is given the first `k` bytes of `OUT`, which loses them. -/
def hostDrainOut (k : Nat) (s : State) : Host.Outcome State Fault Refusal :=
  if k ≤ s.out.length then .next ((s.dropOut k).answer (.bytes (s.out.take k)))
  else .refused .hostMoveNotEnabled

/-- Hardware reset (R230; log 9): every register at its reset value and `OUT` empty. -/
def hardReset (s : State) : Host.Outcome State Fault Refusal :=
  .next s.resetRegisters.clearOut

/-- One host action, whole (R57, R58). -/
def hostAct (c : Config) (a : HostAction) (s : State) : Host.Outcome State Fault Refusal :=
  match a with
  | .readReg n => hostReadReg n s
  | .writeReg n v => hostWriteReg n v s
  | .loadIn b => hostLoadIn c b s
  | .loadPay b => hostLoadPay c b s
  | .readPay => hostReadPay s
  | .drainOut k => hostDrainOut k s
  | .hardReset => hardReset s

/-- The host has this move in this state: a load fits its buffer (R174, R175), a drain takes no more than `OUT` holds
(R177). Every other action is always allowed (R219). -/
def State.enabled (c : Config) (a : HostAction) (s : State) : Bool :=
  a.wf c && match a with
    | .drainOut k => decide (k ≤ s.out.length)
    | .readReg _ | .writeReg _ _ | .loadIn _ | .loadPay _ | .readPay | .hardReset => true

/-- One step of a machine with the capacities of `c`: the host's oldest pending action happens. With none pending the
host does nothing, and the block waits (R214, R240): nothing changes (log 1). -/
def stepWith (c : Config) (s : State) : Host.Outcome State Fault Refusal :=
  match s.pending with
  | [] => .next s
  | a :: rest => hostAct c a (s.setPending rest)

/-- `s` with the host's next action a write of `w` to `CMD` (R20, R21). -/
def State.withCommand (s : State) (w : Word) : State := s.setPending (.writeReg 0 w :: s.pending)

end Sys2Proof.Machine
end

