-- ==== Sys2Proof/Machine/Step.lean ====
section
/-! DEFINITION. The step of the machine. CRF fetches nothing (10_state.md R20): what it runs next is what the host does
next, so a step is the host's next action (log 1). -/

namespace Sys2Proof.Machine

/-- One step (R58), with the capacities of the machine (log 5). -/
def step (s : State) : Host.Outcome State Fault Refusal := stepWith Config.machine s

/-- `s` with the command of an opcode-table row's bits as what the machine runs next: the host's next action writes
that word to `CMD` (log 1). -/
def State.withFetchWord (s : State) (nbits w : Nat) : State := s.withCommand (tableWord nbits w)

end Sys2Proof.Machine
end

