-- ==== Sys2Proof/Machine/Assembler.lean ====
section
/-! DEFINITION. The spec's assembler syntax and pseudo-commands (30_encoding.md R83, R84): what a source line asks the
host to do. A program is host software: it becomes a list of host actions (log 17). -/

namespace Sys2Proof.Machine

/-- The commands `CRC.BYTES b0 ... bk` stands for (R84). -/
def expandCrcBytes (b : List Byte) : List Instr := b.map Instr.crcByte

/-- The commands `CRC.REC` stands for (R84, R113). -/
def expandCrcRec : List Instr := [.crcInit, .crcTyp, .crcPay, .crcFin]

/-- What one line of a program asks for (R83). -/
inductive SourceItem where
  /-- A command: a write of its word to `CMD`. -/
  | command (i : Instr)
  /-- `.in`. -/
  | loadIn (b : List Byte)
  /-- `.pay`. -/
  | loadPay (b : List Byte)
  /-- `.tin`. -/
  | writeTin (v : Word)
  /-- `.ctrl`. -/
  | writeCtrl (v : Word)
  /-- `.read`. -/
  | readReg (n : Nat)
  /-- `.readpay`. -/
  | readPay
  /-- `.drain`: everything `OUT` holds. -/
  | drain
deriving DecidableEq, Repr

/-- The host action an item is, in the state it finds (R83). -/
def SourceItem.action (s : State) : SourceItem → HostAction
  | .command i => .writeReg 0 (encode i)
  | .loadIn b => .loadIn b
  | .loadPay b => .loadPay b
  | .writeTin v => .writeReg 3 v
  | .writeCtrl v => .writeReg 2 v
  | .readReg n => .readReg n
  | .readPay => .readPay
  | .drain => .drainOut s.out.length

/-- Why a line is no line of the syntax. -/
inductive AsmError where
  | unknownMnemonic
  | badOperand
  /-- `STREAM.PARSE` and `STREAM.EMIT` are host procedures with loops, not straight lists of commands (R84): see
  `streamParse` and `streamEmit`. -/
  | hostProcedure
deriving DecidableEq, Repr

/-- A token of a line: a word, or an ASCII string in quotes (R83). -/
inductive Token where
  | word (cs : List Char)
  | quoted (cs : List Char)
  /-- A string whose closing quote is missing. DESIGN CHOICE: R83 is silent, and the model takes it for no operand of any
  line (log 17). -/
  | unclosed (cs : List Char)
deriving DecidableEq, Repr

/-- The word collected so far, as a token if it has a character. -/
def flushWord (acc : List Char) : List Token := if acc.isEmpty then [] else [.word acc.reverse]

/-- The tokens of a line: spaces and tabs separate, `;` outside quotes opens a comment, quotes hold a string. DESIGN
CHOICE where R83 is silent (log 17): a tab separates, a quote ends the word before it, no character is escaped within
quotes, and a string without its closing quote is `Token.unclosed`. -/
def lexLine : Bool → List Char → List Char → List Token
  | false, acc, [] => flushWord acc
  | true, acc, [] => [.unclosed acc.reverse]
  | false, acc, ch :: r =>
    if ch = ';' then flushWord acc
    else if ch = ' ' ∨ ch = '\t' then flushWord acc ++ lexLine false [] r
    else if ch = '"' then flushWord acc ++ lexLine true [] r
    else lexLine false (ch :: acc) r
  | true, acc, ch :: r =>
    if ch = '"' then .quoted acc.reverse :: lexLine false [] r else lexLine true (ch :: acc) r

/-- The value of a digit of the given base, 10 or 16. DESIGN CHOICE: a hex digit may be of either case (log 17). -/
def digitValue (base : Nat) (ch : Char) : Option Nat :=
  let n := ch.toNat
  let d :=
    if 48 ≤ n ∧ n ≤ 57 then some (n - 48)
    else if 65 ≤ n ∧ n ≤ 70 then some (n - 55)
    else if 97 ≤ n ∧ n ≤ 102 then some (n - 87)
    else none
  d.bind fun v => if v < base then some v else none

/-- The digits of a number, most significant first. -/
def digitsValue (base : Nat) (cs : List Char) : Option Nat :=
  if cs.isEmpty then none
  else cs.foldl (fun acc ch => acc.bind fun a => (digitValue base ch).map fun d => a * base + d) (some 0)

/-- A number: decimal, or hexadecimal after `0x`, of any count of digits (DESIGN CHOICE, log 17). -/
def numberOf : List Char → Option Nat
  | '0' :: 'x' :: r => digitsValue 16 r
  | cs => digitsValue 10 cs

/-- An immediate's value: `0x` plus two hex digits, or a decimal number 0 to 255 (R83). -/
def immOf (cs : List Char) : Option Byte :=
  match cs with
  | '0' :: 'x' :: r => if r.length = 2 then (digitsValue 16 r).map (BitVec.ofNat 8) else none
  | _ => (digitsValue 10 cs).bind fun n => if n ≤ 255 then some (BitVec.ofNat 8 n) else none

/-- The bytes of one token of a directive: two hex digits, or a quoted string's characters (R83). -/
def tokenBytes : Token → Option (List Byte)
  | .word cs => if cs.length = 2 then (digitsValue 16 cs).map fun n => [BitVec.ofNat 8 n] else none
  | .quoted cs =>
    if cs.all fun ch => decide (ch.toNat < 128) then some (cs.map fun ch => BitVec.ofNat 8 ch.toNat) else none
  | .unclosed _ => none

/-- The bytes of a directive's operands, in order. -/
def tokensBytes : List Token → Option (List Byte)
  | [] => some []
  | t :: r => (tokenBytes t).bind fun b => (tokensBytes r).map fun q => b ++ q

/-- The immediates of `CRC.BYTES`, in order (R84). DESIGN CHOICE: written as that of `CRC.BYTE` without `#` (log 17). -/
def tokensImms : List Token → Option (List Byte)
  | [] => some []
  | .word cs :: r => (immOf cs).bind fun b => (tokensImms r).map fun q => b :: q
  | .quoted _ :: _ | .unclosed _ :: _ => none

/-- The value a host write of `.ctrl` gives, a 32-bit word (R83, R173). DESIGN CHOICE: a number of 2^32 or more is no
such value, and the line is rejected (log 17). -/
def ctrlValue (cs : List Char) : Option Word :=
  (numberOf cs).bind fun n => if n < 2 ^ 32 then some (BitVec.ofNat 32 n) else none

/-- The register names of 10_state.md R11, in register order. -/
def registerNames : List String :=
  ["CMD", "STATUS", "CTRL", "TIN", "TYP", "LEN", "CRC", "CCRC", "ACC", "RP", "IN_LEN", "PAY_LEN", "EPOS"]

/-- The commands without an operand. -/
def plainCommands : List Instr :=
  [.nop, .sysReset, .crcInit, .crcTyp, .crcPay, .crcFin, .crcVerify, .typeStrict, .typeRaw, .recParse, .recBuild,
   .recEmit, .sigCheck, .sigEmit]

/-- The items of an option, or the error of a bad operand. -/
def orBad (o : Option (List SourceItem)) : Except AsmError (List SourceItem) :=
  match o with
  | some l => .ok l
  | none => .error .badOperand

/-- A line's items from its first word and its operands (R83, R84). DESIGN CHOICE where the two are silent (log 17):
`CRC.BYTES` without an operand is rejected, `.in` and `.pay` without one load the empty sequence, and an operand where
none belongs is rejected. -/
def assembleWords (w : String) (ops : List Token) : Except AsmError (List SourceItem) :=
  if w = "CRC.BYTE" then
    orBad (match ops with
      | [.word ('#' :: cs)] => (immOf cs).map fun b => [.command (.crcByte b)]
      | _ => none)
  else if w = "CRC.BYTES" then
    orBad (if ops.isEmpty then none else (tokensImms ops).map fun b => (expandCrcBytes b).map .command)
  else if w = "CRC.REC" then orBad (if ops.isEmpty then some (expandCrcRec.map .command) else none)
  else if w = "STREAM.PARSE" ∨ w = "STREAM.EMIT" then .error .hostProcedure
  else if w = ".in" then orBad ((tokensBytes ops).map fun b => [.loadIn b])
  else if w = ".pay" then orBad ((tokensBytes ops).map fun b => [.loadPay b])
  else if w = ".tin" then
    orBad ((tokensBytes ops).bind fun b => if b.length = 4 then some [.writeTin (be32 b)] else none)
  else if w = ".ctrl" then
    orBad (match ops with
      | [.word cs] => (ctrlValue cs).map fun v => [.writeCtrl v]
      | _ => none)
  else if w = ".read" then
    orBad (match ops with
      | [.word cs] => (registerNames.findIdx? fun x => decide (x = String.ofList cs)).map fun n => [.readReg n]
      | _ => none)
  else if w = ".readpay" then orBad (if ops.isEmpty then some [.readPay] else none)
  else if w = ".drain" then orBad (if ops.isEmpty then some [.drain] else none)
  else
    match plainCommands.find? fun i => decide (i.mnemonic = w) with
    | some i => orBad (if ops.isEmpty then some [.command i] else none)
    | none => .error .unknownMnemonic

/-- The items of one source line; a blank or comment line has none (R83). -/
def assembleLine (line : List Char) : Except AsmError (List SourceItem) :=
  match lexLine false [] line with
  | [] => .ok []
  | .word w :: ops => assembleWords (String.ofList w) ops
  | .quoted _ :: _ | .unclosed _ :: _ => .error .unknownMnemonic

end Sys2Proof.Machine
end

