-- ==== Sys2Proof/Machine/HostOps.lean ====
section
/-! DEFINITION. Host procedures the spec writes down over the block's commands: the stream procedures (43_stream.md R162,
R163), text and type codes, and the sequence of chunks (46_host_operations.md R180 to R192). They are host software, no
command of the block and no part of `step` (R4); each is a function over `exec` and the host actions. -/

namespace Sys2Proof.Machine

/-- A chunk of the host's sequence: length, type code, payload bytes, checksum (R186). Equality is that of R147. -/
structure Chunk where
  len : Word
  typ : Word
  pay : List Byte
  crc : Word
deriving DecidableEq, Repr

/-- The held record as the host reads it: `(LEN, TYP, HostReadPay(), CRC)` (R140, R162). -/
def State.heldChunk (s : State) : Chunk := ⟨s.len, s.typ, s.payload, s.crc⟩

/-- The record of a chunk on the wire (R70). -/
def Chunk.bytes (k : Chunk) : List Byte := bytesBe32 k.len ++ bytesBe32 k.typ ++ k.pay ++ bytesBe32 k.crc

/-- The computed checksum of a chunk (R105). -/
def Chunk.computed (k : Chunk) : Word := crc32 (bytesBe32 k.typ ++ k.pay)

/-- A chunk the block can have held: its length counts its payload (R71) and its type bytes are letters (R28 I-d). -/
def Chunk.wf (k : Chunk) : Bool := decide (k.pay.length = k.len.toNat) && letters (bytesBe32 k.typ)

/-- The bytes of a stream: the signature, then each record (R75). -/
def streamBytes (seq : List Chunk) : List Byte := Config.signature ++ seq.flatMap Chunk.bytes

/-! ### The stream procedures -/

/-- How `STREAM.PARSE` ends (R162, R221). -/
inductive StreamResult where
  /-- The sequence of chunks. -/
  | parsed (seq : List Chunk)
  /-- `BadSignature`, not wrapped (R221). -/
  | badSignature
  /-- `MalformedChunk` with the byte offset of the failing record and the block's own codes as cause (R221). -/
  | malformedChunk (position : Word) (err cause : BitVec 4)
  /-- The bound on the loop's passes ran out: it never does, the spec's own argument in R162 (log 13). -/
  | unfinished
deriving DecidableEq, Repr

/-- The loop of R162: while `RP != IN_LEN`, parse one record and append it. At most `fuel` passes (log 13). -/
def streamLoop : Nat → List Chunk → State → Host.Outcome (StreamResult × State) Fault Refusal
  | 0, seq, s => if s.rp = s.inLen then .next (.parsed seq, s) else .next (.unfinished, s)
  | fuel + 1, seq, s =>
    if s.rp = s.inLen then .next (.parsed seq, s)
    else
      andThen (exec .recParse s) fun t =>
        if t.err = 0#4 then streamLoop fuel (seq ++ [t.heldChunk]) t
        else .next (.malformedChunk t.epos t.err t.cause, t)

/-- `STREAM.PARSE` of a buffer (R162). -/
def streamParse (c : Config) (buffer : List Byte) (s : State) : Host.Outcome (StreamResult × State) Fault Refusal :=
  andThen (hostLoadIn c buffer s) fun s1 =>
    andThen (exec .sigCheck s1) fun s2 =>
      if s2.err = 0#4 then streamLoop buffer.length [] s2 else .next (.badSignature, s2)

/-- "Make c the held record" (R163): through `REC.BUILD` when its checksum is the computed one, else through a
`REC.PARSE` of its bytes with `CTRL.STRICT = 0`, which the host writes and leaves so (log 14). -/
def holdChunk (c : Config) (k : Chunk) (s : State) : Host.Outcome State Fault Refusal :=
  if k.crc = k.computed then
    andThen (hostWriteReg 3 k.typ s) fun s1 =>
      andThen (exec .typeRaw s1) fun s2 =>
        andThen (hostLoadPay c k.pay s2) fun s3 => exec .recBuild s3
  else
    andThen (hostWriteReg 2 0#32 s) fun s1 =>
      andThen (hostLoadIn c k.bytes s1) fun s2 => exec .recParse s2

/-- Each chunk of a sequence held and emitted, in order (R163). -/
def emitChunks (c : Config) : List Chunk → State → Host.Outcome State Fault Refusal
  | [], s => .next s
  | k :: r, s => andThen (holdChunk c k s) fun t => andThen (exec .recEmit t) (emitChunks c r)

/-- `STREAM.EMIT` of a sequence (R163). -/
def streamEmit (c : Config) (seq : List Chunk) (s : State) : Host.Outcome State Fault Refusal :=
  andThen (exec .sigEmit s) (emitChunks c seq)

/-! ### Text and type codes -/

/-- How text becomes a type code (R180 to R182, R185). -/
inductive TextResult where
  /-- A type code, now held in `TYP`. -/
  | typeCode (t : Word)
  /-- `TooLong` (R181), `InvalidTypeByte` (R180), or on the strict route `ReservedBitSet` (R185, R204). -/
  | failed (e : ErrorName)
  /-- Fewer than four characters: no meaning is given (`TEXT_PAD` is "refuse", R182; log 15). -/
  | refused
deriving DecidableEq, Repr

/-- The constructor by which the host makes a type code of `TIN`: its choice (R185). -/
inductive TypeRoute where
  /-- `TYPE.STRICT`, recommended for authored chunks (R125, R185). -/
  | strict
  /-- `TYPE.RAW`, the text route (R126, R180). -/
  | raw
deriving DecidableEq, Repr

/-- The command of a route. -/
def TypeRoute.command : TypeRoute → Instr
  | .strict => .typeStrict
  | .raw => .typeRaw

/-- `be32` of the character codes of a 4-character text (R180). -/
def textWord (text : List Char) : Word := be32 (text.map fun ch => BitVec.ofNat 8 ch.toNat)

/-- Text to a type code by a route (R180 to R182, R185). The failure is the block's own, `ReservedBitSet` on the strict
route only (R204). A character above 255 fits no byte of `TIN`: the host reports it (log 15). -/
def textToTypeCode (r : TypeRoute) (text : List Char) (s : State) :
    Host.Outcome (TextResult × State) Fault Refusal :=
  if 4 < text.length then .next (.failed .tooLong, s)
  else if text.length < 4 then .next (.refused, s)
  else if text.any (fun ch => decide (255 < ch.toNat)) then .next (.failed .invalidTypeByte, s)
  else
    andThen (hostWriteReg 3 (textWord text) s) fun s1 =>
      andThen (exec r.command s1) fun s2 =>
        if s2.err = 0#4 then .next (.typeCode s2.typ, s2)
        else if s2.err = ErrorName.code .reservedBitSet then .next (.failed .reservedBitSet, s2)
        else .next (.failed .invalidTypeByte, s2)

/-- `parse_from_text(s)` (R180 to R182): the raw route. -/
def parseFromText (text : List Char) (s : State) : Host.Outcome (TextResult × State) Fault Refusal :=
  textToTypeCode .raw text s

/-- `render_as_text()` of a type code (R183). -/
def renderAsText (t : Word) : List Char := (bytesBe32 t).map fun b => Char.ofNat b.toNat

/-- `payload_as_text()` (R184): standard UTF-8, the library's decoder (log 15). -/
def payloadAsText (b : List Byte) : Except ErrorName String :=
  match String.fromUTF8? ⟨(b.map UInt8.ofBitVec).toArray⟩ with
  | some t => .ok t
  | none => .error .notUtf8

/-- The UTF-8 bytes of a text (R185), the library's encoder (log 15). -/
def utf8Bytes (text : String) : List Byte := text.toUTF8.data.toList.map UInt8.toBitVec

/-- Building a chunk from text (R185): the type code by the route of the host's choice, the payload text's UTF-8 bytes,
`REC.BUILD`. -/
def buildFromText (c : Config) (r : TypeRoute) (typ : List Char) (text : String) (s : State) :
    Host.Outcome (TextResult × State) Fault Refusal :=
  andThen (textToTypeCode r typ s) fun q =>
    match q with
    | (.typeCode t, s1) =>
      andThen (hostLoadPay c (utf8Bytes text) s1) fun s2 =>
        andThen (exec .recBuild s2) fun s3 => .next (.typeCode t, s3)
    | (e, s1) => .next (e, s1)

/-! ### The sequence of chunks -/

/-- `construct_from_chunks` (R187): the signature is a constant, so a container is its sequence (R186). -/
def constructFromChunks (seq : List Chunk) : List Chunk := seq

/-- `append_chunk` (R188). -/
def appendChunk (seq : List Chunk) (k : Chunk) : List Chunk := seq ++ [k]

/-- `remove_first_chunk` (R189): the chunk and the rest, or `ChunkNotFound`. -/
def removeFirstChunk (t : Word) : List Chunk → Except ErrorName (Chunk × List Chunk)
  | [] => .error .chunkNotFound
  | k :: r =>
    if k.typ = t then .ok (k, r)
    else
      match removeFirstChunk t r with
      | .ok (j, q) => .ok (j, k :: q)
      | .error e => .error e

/-- `chunk_by_type` (R190): a miss is none, not a failure (C4). -/
def chunkByType (seq : List Chunk) (t : Word) : Option Chunk := seq.find? fun k => decide (k.typ = t)

/-- `chunks()` (R191). -/
def chunksOf (seq : List Chunk) : List Chunk := seq

/-- `signature()` (R161, R191). -/
def containerSignature : List Byte := Config.signature

end Sys2Proof.Machine
end

