-- ==== Sys2Proof/Safety.lean ====
section
/-! DEFINITION. What holds of every reachable state (10_state.md R28), and the words in which claims say what a command
leaves unchanged: through the host's register reads, the bits of `STATUS`, the bytes of `IN` and `PAY`, `OUT`, and the
host's own side. -/

namespace Sys2Proof.Machine

/-- The checksum of the held record over its type bytes and payload (R105). -/
def State.heldChecksum (s : State) : Word := crc32 (s.typeBytes ++ s.heldPayload)

/-- The invariants (I-a) to (I-e), (I-g), (I-h) of R28, and with them what the model's storage needs: canonical form,
and no listed byte at or beyond the buffer's capacity (R50). -/
structure Inv (c : Config) (s : State) : Prop where
  /-- (I-a). -/
  rp_le : s.rp.toNat ≤ s.inLen.toNat
  /-- (I-a). -/
  inLen_le : s.inLen.toNat ≤ c.inCap
  /-- (I-b). -/
  payLen_le : s.payLen.toNat ≤ c.payCap
  /-- (I-c). -/
  held_len : s.held = true → s.len = s.payLen
  /-- (I-c). -/
  held_tok : s.held = true → s.tok = true
  /-- (I-d). -/
  tok_letters : s.tok = true → ∀ i, isLetter (typeByte s.typ i) = true
  /-- (I-e). -/
  computed : s.held = true → s.csrc = false → s.crc = s.heldChecksum
  /-- (I-g). -/
  dropped : s.held = false → s.csrc = false ∧ s.crcok = false
  /-- (I-h). -/
  reserved : s.status.extractLsb' 17 15 = 0#15 ∧ s.ctrl.extractLsb' 1 31 = 0#31
  /-- The storage of `IN` is in canonical form. -/
  in_wf : Memory.wf s.inMem
  /-- The storage of `PAY` is in canonical form. -/
  pay_wf : Memory.wf s.payMem
  /-- Nothing is stored beyond `IN_CAP`. -/
  in_within : Memory.within s.inMem c.inCap
  /-- Nothing is stored beyond `PAY_CAP`. -/
  pay_within : Memory.within s.payMem c.payCap

/-- (I-f) of R28 speaks of the past: whether `CTRL.STRICT` was 1 when the held record was parsed. `judged` is that
fact, kept beside the state along a run: a record parsed under `STRICT = 1`, or built, is judged. -/
def nextJudged (judged : Bool) (s t : State) : Bool :=
  match s.pending with
  | .writeReg 0 w :: _ =>
    match decode w with
    | .ok .recParse => if t.err = 0#4 then s.strict else judged
    | .ok .recBuild => if t.err = 0#4 then true else judged
    | _ => judged
  | _ => judged

/-- (I-f) of R28: a held record that was judged carries its computed checksum. -/
def Judged (judged : Bool) (s : State) : Prop :=
  s.held = true → judged = true → s.crc = s.heldChecksum

/-- The register reads that are unchanged: all but those of the numbers in `w`. -/
def RegsKept (w : List Nat) (s t : State) : Prop := ∀ n, n ∉ w → t.readReg n = s.readReg n

/-- The bits of `STATUS` that are unchanged: all but those in `b`. -/
def StatusKept (b : List Nat) (s t : State) : Prop :=
  ∀ k, k ∉ b → t.status.getLsbD k = s.status.getLsbD k

/-- The bits of the error report, `ERR` and `CAUSE`, in `STATUS` (R22). -/
def reportBits : List Nat := [0, 1, 2, 3, 4, 5, 6, 7]

/-- Every byte of `IN` reads as before. -/
def InKept (s t : State) : Prop := ∀ a, t.inMem.read a = s.inMem.read a

/-- Every byte of `PAY` reads as before. -/
def PayKept (s t : State) : Prop := ∀ a, t.payMem.read a = s.payMem.read a

/-- The host's side is untouched: what it will do and what it was given. -/
def HostKept (s t : State) : Prop := t.pending = s.pending ∧ t.answers = s.answers

/-- What a command that writes no buffer and emits nothing leaves unchanged: every register but `STATUS` and those of
`w`, every bit of `STATUS` but those of `b`, every byte of `IN` and `PAY`, `OUT`, and the host's side. -/
structure Frame (w b : List Nat) (s t : State) : Prop where
  regs : RegsKept (1 :: w) s t
  status : StatusKept b s t
  inBytes : InKept s t
  payBytes : PayKept s t
  out : t.out = s.out
  host : HostKept s t

/-- The error report says success (R200). -/
def Cleared (t : State) : Prop := t.err = 0#4 ∧ t.cause = 0#4

/-- An outcome is the failure `f`, precisely (R214): the next state is the state before plus the error report, `ERR`,
`CAUSE` and `EPOS = RP`. -/
def ReportsOnly (f : Failure) (o : Host.Outcome State Fault Refusal) (s : State) : Prop :=
  ∃ t, o = .next t ∧ t.err = f.name.code ∧ t.cause = f.causeCode ∧ t.epos = s.rp ∧ Frame [12] reportBits s t

/-- The command fails with `f` (R214). -/
def FailsWith (f : Failure) (i : Instr) (s : State) : Prop := ReportsOnly f (exec i s) s

/-- Two states that differ at most in bytes that hold no value: those of `IN` at or beyond `IN_LEN` and those of `PAY`
at or beyond `PAY_LEN` (R27). -/
structure SameReadable (s t : State) : Prop where
  rest : { t with inMem := s.inMem, payMem := s.payMem } = s
  inBytes : ∀ a, a < s.inLen.toNat → t.inMem.read a = s.inMem.read a
  payBytes : ∀ a, a < s.payLen.toNat → t.payMem.read a = s.payMem.read a

/-- Whether `o` is a next state. -/
def Completes (o : Host.Outcome State Fault Refusal) : Prop := ∃ t, o = .next t

end Sys2Proof.Machine
end

