-- ==== Sys2Proof/Certificates/Slice0/Obligations.lean ====
section
/-! DEFINITION. The statements about the model, from the numbered rules of spec/. What a command leaves unchanged is said
with the words of Safety.lean. Numbers in fields are the rules' own: registers by number (R11), bits of `STATUS` by
position (R22). -/

open Sys2Proof Sys2Proof.Machine

namespace Sys2Proof.Claims

/-- R120, in its own numbers: 65 to 90 or 97 to 122. -/
def AsciiLetter (b : Byte) : Prop := (65 ≤ b.toNat ∧ b.toNat ≤ 90) ∨ (97 ≤ b.toNat ∧ b.toNat ≤ 122)

/-- The four bytes of a packed type code are letters (R120). -/
def AllLetters (v : Word) : Prop := ∀ i, AsciiLetter (typeByte v i)

/-- The error report and the stored flags `REC`, `TOK`, `CSRC`, `CRCOK` in `STATUS` (R22). -/
def storedBits : List Nat := [0, 1, 2, 3, 4, 5, 6, 7, 8, 9, 10, 11]

/-- All the defined bits of `STATUS` (R22). -/
def allBits : List Nat := storedBits ++ [12, 13, 14, 15, 16]

/-- The bytes `PAY[0..n)`, one read each. -/
def payBytes (s : State) (n : Nat) : List Byte := (List.range n).map s.payMem.read

/-- Byte `k` of the record that starts at `RP` (R74). -/
def recByte (s : State) (k : Nat) : Byte := s.inMem.read (s.rp.toNat + k)

/-- The number four bytes stand for, the first most significant (R8, `be32`). -/
def bigEndian (b0 b1 b2 b3 : Byte) : Nat := b0.toNat * 2 ^ 24 + b1.toNat * 2 ^ 16 + b2.toNat * 2 ^ 8 + b3.toNat

/-- The length field of the record at `RP` (R74). -/
def recLen (s : State) : Nat := bigEndian (recByte s 0) (recByte s 1) (recByte s 2) (recByte s 3)

/-- The type bytes of the record at `RP` (R74). -/
def recType (s : State) : List Byte := (List.range 4).map fun k => recByte s (4 + k)

/-- The payload bytes of the record at `RP` (R74). -/
def recPayload (s : State) : List Byte := (List.range (recLen s)).map fun k => recByte s (8 + k)

/-- The checksum field of the record at `RP`, where the input has one (R74). -/
def recStored (s : State) : Nat :=
  bigEndian (recByte s (8 + recLen s)) (recByte s (9 + recLen s)) (recByte s (10 + recLen s)) (recByte s (11 + recLen s))

/-- The computed checksum of the record at `RP` (R105). -/
def recComputed (s : State) : Word := crc32 (recType s ++ recPayload s)

/-- The bytes from `RP` to the end of the input (R141 step 1). -/
def avail (s : State) : Nat := s.inLen.toNat - s.rp.toNat

/-- The type bytes of the record at `RP` are letters. -/
def recLetters (s : State) : Prop := ∀ b ∈ recType s, AsciiLetter b

/-- What a successful parse leaves, `used` bytes consumed and the checksum `sum` held, read from the input or not
(R141 step 8): every register, every flag, every byte of `PAY`, and what is unchanged. -/
structure ParseEffect (used : Nat) (sum : Word) (src : Bool) (s t : State) : Prop where
  len : t.len.toNat = recLen s
  typ : bytesBe32 t.typ = recType s
  payLen : t.payLen = t.len
  pay : ∀ k, k < recLen s → t.payMem.read k = recByte s (8 + k)
  payRest : ∀ a, recLen s ≤ a → t.payMem.read a = s.payMem.read a
  crc : t.crc = sum
  ccrc : t.ccrc = recComputed s
  acc : t.acc = crcAcc 0xFFFFFFFF#32 (recType s ++ recPayload s)
  rp : t.rp.toNat = s.rp.toNat + used
  held : t.held = true
  tok : t.tok = true
  csrc : t.csrc = src
  crcok : t.crcok = true ↔ sum = recComputed s
  cleared : Cleared t
  regs : RegsKept [1, 4, 5, 6, 7, 8, 9, 11] s t
  status : StatusKept allBits s t
  inBytes : InKept s t
  out : t.out = s.out
  host : HostKept s t

/-- The registers a committing command writes, by number, `STATUS` always among them (R11, the "written by" column). -/
def writtenBy : Instr → List Nat
  | .nop | .recEmit | .sigEmit => [1]
  | .sysReset => [1, 2, 3, 4, 5, 6, 7, 8, 9, 10, 11, 12]
  | .crcInit | .crcByte _ | .crcTyp | .crcPay => [1, 8]
  | .crcFin => [1, 7]
  | .crcVerify => [1, 7, 8]
  | .typeStrict | .typeRaw => [1, 4]
  | .recParse => [1, 4, 5, 6, 7, 8, 9, 11]
  | .recBuild => [1, 5, 6, 7, 8]
  | .sigCheck => [1, 9]

/-- The registers a host action other than a write to `CMD` writes (R173 to R177, R230). -/
def writtenByHost : HostAction → List Nat
  | .readReg _ | .readPay | .drainOut _ => []
  | .writeReg 2 _ => [2]
  | .writeReg 3 _ => [3]
  | .writeReg _ _ => []
  | .loadIn _ => [9, 10]
  | .loadPay _ => [1, 11]
  | .hardReset => [1, 2, 3, 4, 5, 6, 7, 8, 9, 10, 11, 12]

/-- The word is a command's: its opcode is a row's (R80). -/
def KnownOpcode (w : Word) : Prop := ∃ r ∈ opcodeTable, opcField w = opcField r.pattern

/-- The host's next action writes the word of `i` to `CMD`, and it succeeds with `t`. -/
def NextSucceeds (i : Instr) (s t : State) : Prop :=
  ∃ w r, s.pending = .writeReg 0 w :: r ∧ decode w = .ok i ∧ t.err = 0#4

/-- The offsets of `IN` that R52 has a command read: the record at `RP` or the 8 bytes there, as far as present. -/
def ReadsIn (i : Instr) (s : State) (a : Nat) : Prop :=
  s.rp.toNat ≤ a ∧ a < s.inLen.toNat ∧
    ((i = .recParse ∧ a < s.rp.toNat + (12 + recLen s)) ∨ (i = .sigCheck ∧ a < s.rp.toNat + 8))

/-- The offsets of `PAY` that R52 has a command read. For `CRC.VERIFY` the bound is that of R111, `LEN`: R52 writes
`PAY_LEN`, the same while a record is held (R28). -/
def ReadsPay (i : Instr) (s : State) (a : Nat) : Prop :=
  ((i = .recBuild ∨ i = .crcPay) ∧ a < s.payLen.toNat) ∨ ((i = .recEmit ∨ i = .crcVerify) ∧ a < s.len.toNat)

end Sys2Proof.Claims

open Sys2Proof.Claims

/-! ### Encoding -/

/-- 30_encoding.md sections 4 and 5: a word decodes to a command exactly when it is the word that encodes it. -/
def Obligations.DecodeExactlyInvertsEncode : Prop :=
  ∀ (w : Word) (i : Instr), decode w = .ok i ↔ i.wf = true ∧ w = encode i

/-- R80: a word is the command of a row iff `(w and mask) = match`; every row's command has the row's mnemonic. -/
def Obligations.WordMatchesItsOpcodeRow : Prop :=
  ∀ (w : Word), ∀ r ∈ opcodeTable,
    w &&& r.mask = r.pattern ↔ ∃ i, decode w = .ok i ∧ i.mnemonic = r.mnemonic

/-- R81: decoding is total. A word matches exactly one row and its command is executed, or it is illegal for one of the
reasons (a), (b), (c), executes nothing and fails with `IllegalCommand`, cause 1 for (a) whatever the other fields are. -/
def Obligations.EveryWordIsOneCommandOrIllegal : Prop :=
  ∀ (w : Word) (s : State),
    (¬ KnownOpcode w → ReportsOnly .badOpcode (runCommand w s) s) ∧
    (KnownOpcode w → rsvField w ≠ 0#16 ∨ (immField w ≠ 0#8 ∧ opcField w ≠ 0x11#8) →
      ReportsOnly .badField (runCommand w s) s) ∧
    (KnownOpcode w → rsvField w = 0#16 → immField w = 0#8 ∨ opcField w = 0x11#8 →
      (∃ i, decode w = .ok i ∧ runCommand w s = exec i s) ∧
        ∃ r ∈ opcodeTable, w &&& r.mask = r.pattern ∧ ∀ q ∈ opcodeTable, w &&& q.mask = q.pattern → q = r)

/-- Words written out from R80's rows decode to the rows' commands. -/
def Obligations.WrittenOutWordsDecode : Prop :=
  decode 0x00000000#32 = .ok .nop ∧ decode 0x01000000#32 = .ok .sysReset ∧
  decode 0x11000031#32 = .ok (.crcByte 0x31#8) ∧ decode 0x15000000#32 = .ok .crcVerify ∧
  decode 0x20000000#32 = .ok .typeStrict ∧ decode 0x30000000#32 = .ok .recParse ∧
  decode 0x41000000#32 = .ok .sigEmit ∧ decode 0x02000100#32 = .error .badOpcode ∧
  decode 0x10000001#32 = .error .badField

/-- R21, with the host's actions in the model's list (log 1): a host write of a word to `CMD` makes the block execute the
command it encodes, as one step, before the host's other actions; a read of `CMD` returns 0. -/
def Obligations.StepRunsTheCommandWrittenToCmd : Prop :=
  (∀ (s : State) (w : Word) (r : List HostAction) (i : Instr),
    s.pending = .writeReg 0 w :: r → decode w = .ok i → step s = exec i (s.setPending r)) ∧
  (∀ s : State, s.readReg 0 = 0#32)

/-- R200, R217, and the model's choice for moves the host does not have (log 3) and for a host that does nothing (log 1):
a step completes whenever the host's next action is enabled; it stops only where the host has no such move. -/
def Obligations.StepStopsOnlyWhereTheHostHasNoMove : Prop :=
  ∀ s : State,
    (s.pending = [] → step s = .next s) ∧
    (∀ a r, s.pending = a :: r → s.enabled Config.machine a = true → Completes (step s)) ∧
    (∀ a r, s.pending = a :: r → s.enabled Config.machine a = false → step s = .refused .hostMoveNotEnabled)

/-! ### System commands and reset -/

/-- R170: `NOP` clears the error report and does nothing else. -/
def Obligations.NopClearsTheReportOnly : Prop :=
  ∀ s : State, ∃ t, exec .nop s = .next t ∧ Cleared t ∧ Frame [] reportBits s t

/-- R171: `SYS.RESET` puts every register at its reset value and keeps `OUT`. -/
def Obligations.SysResetPutsRegistersAtReset : Prop :=
  ∀ s : State, ∃ t, exec .sysReset s = .next t ∧
    t.status = 0x00007000#32 ∧ t.ctrl = 0#32 ∧ t.tin = 0#32 ∧ t.typ = 0#32 ∧ t.len = 0#32 ∧ t.crc = 0#32 ∧
    t.ccrc = 0#32 ∧ t.acc = 0xFFFFFFFF#32 ∧ t.rp = 0#32 ∧ t.inLen = 0#32 ∧ t.payLen = 0#32 ∧ t.epos = 0#32 ∧
    t.out = s.out ∧ HostKept s t

/-- R230, R231 and the model's choices that hardware reset is an input between host actions (log 9) and that reset
leaves the unreadable storage alone (log 4): hardware reset gives the register state of `SYS.RESET` and an empty
`OUT`; neither changes a byte of storage. -/
def Obligations.HardwareResetIsSysResetWithoutOutput : Prop :=
  ∀ (c : Config) (s : State), ∃ t u, exec .sysReset s = .next t ∧ hostAct c .hardReset s = .next u ∧
    (∀ n, u.readReg n = t.readReg n) ∧ (∀ n, u.readReg n = State.reset.readReg n) ∧ u.out = [] ∧
    InKept s t ∧ PayKept s t ∧ InKept s u ∧ PayKept s u ∧ HostKept s u

/-- R230: what hardware reset leaves, register by register. -/
def Obligations.ResetStateHasTheStatedValues : Prop :=
  State.reset.readReg 1 = 0x00007000#32 ∧ State.reset.readReg 2 = 0#32 ∧ State.reset.readReg 8 = 0xFFFFFFFF#32 ∧
  (∀ n, n ∉ [1, 2, 8] → State.reset.readReg n = 0#32) ∧ State.reset.out = []

/-- R232, its list of what each command finds in the reset state. -/
def Obligations.EachCommandAtReset : Prop :=
  (∀ i, i ∈ [.crcInit, .crcTyp, .crcPay, .crcFin, .nop, .sigEmit, .sysReset] ∨ (∃ b, i = Instr.crcByte b) →
    ∃ t, exec i State.reset = .next t ∧ Cleared t) ∧
  FailsWith .shortHeader .recParse State.reset ∧ FailsWith .badSignature .sigCheck State.reset ∧
  FailsWith .invalidTypeByte .typeStrict State.reset ∧ FailsWith .invalidTypeByte .typeRaw State.reset ∧
  FailsWith .badState .recBuild State.reset ∧ FailsWith .badState .recEmit State.reset ∧
  FailsWith .badState .crcVerify State.reset

/-! ### The CRC -/

/-- R106, R108, R109: `CRC.INIT` starts the accumulator, `CRC.TYP` folds the four type bytes and `CRC.PAY` the valid
payload bytes, in increasing order; nothing else changes but the report. -/
def Obligations.CrcCommandsWriteTheAccumulatorOnly : Prop :=
  ∀ s : State,
    (∃ t, exec .crcInit s = .next t ∧ t.acc = 0xFFFFFFFF#32 ∧ Cleared t ∧ Frame [8] reportBits s t) ∧
    (∃ t, exec .crcTyp s = .next t ∧
      t.acc = crcStep (crcStep (crcStep (crcStep s.acc (typeByte s.typ 0)) (typeByte s.typ 1)) (typeByte s.typ 2))
        (typeByte s.typ 3) ∧ Cleared t ∧ Frame [8] reportBits s t) ∧
    (∃ t, exec .crcPay s = .next t ∧ t.acc = crcAcc s.acc (payBytes s s.payLen.toNat) ∧ Cleared t ∧
      Frame [8] reportBits s t)

/-- R107: `CRC.BYTE` steps the accumulator with its byte; with a non-zero `RSV` nothing is done; a zero byte changes the
accumulator unless it is 0; and the rule's two examples. -/
def Obligations.CrcByteStepsTheAccumulator : Prop :=
  (∀ (b : Byte) (s : State), ∃ t, exec (.crcByte b) s = .next t ∧ t.acc = crcStep s.acc b ∧ Cleared t ∧
    Frame [8] reportBits s t) ∧
  (∀ (w : Word) (s : State), opcField w = 0x11#8 → rsvField w ≠ 0#16 → ReportsOnly .badField (runCommand w s) s) ∧
  (∀ a : Word, crcStep a 0#8 = a ↔ a = 0#32) ∧
  crcStep 0xFFFFFFFF#32 0xFF#8 = 0x00FFFFFF#32 ∧ crcStep 0xFFFFFFFF#32 0x31#8 = 0x7C231048#32

/-- R110: `CRC.FIN` gives the complement of the accumulator, which it keeps. -/
def Obligations.CrcFinWritesTheComplement : Prop :=
  ∀ s : State, ∃ t, exec .crcFin s = .next t ∧ t.ccrc = s.acc ^^^ 0xFFFFFFFF#32 ∧ Cleared t ∧ Frame [7] reportBits s t

/-- R111: `CRC.VERIFY` recomputes the held record's checksum and reports the comparison in `CRCOK`; a mismatch is no
error; without a held record it is `IllegalCommand` cause 3. -/
def Obligations.CrcVerifyReportsTheComparison : Prop :=
  ∀ s : State,
    (s.held = true → ∃ t, exec .crcVerify s = .next t ∧
      t.acc = crcAcc 0xFFFFFFFF#32 (bytesBe32 s.typ ++ payBytes s s.len.toNat) ∧
      t.ccrc = t.acc ^^^ 0xFFFFFFFF#32 ∧ (t.crcok = true ↔ s.crc = t.ccrc) ∧ Cleared t ∧
      Frame [7, 8] (11 :: reportBits) s t) ∧
    (s.held = false → FailsWith .badState .crcVerify s)

/-- The spec's own inference in R111, "after `REC.BUILD` it always gives `CRCOK = 1`": whatever `TYP` and `PAY` were, and
any number of CRC commands that touch neither in between. -/
def Obligations.VerifyAfterBuildConfirms : Prop :=
  ∀ (s t u : State) (b : List Byte), s.tok = true → exec .recBuild s = .next t →
    Sys2Proof.core.run b.length (t.setPending ((expandCrcBytes b).map fun i => .writeReg 0 (encode i))) = .next u →
    ∃ v, exec .crcVerify u = .next v ∧ v.crcok = true ∧ v.ccrc = t.crc ∧ v.acc = t.acc

/-- R103, the spec's own inference from R100: the table form equals the bitwise form for every accumulator and byte, with the first entries of the table. -/
def Obligations.TableFormEqualsBitwiseForm : Prop :=
  (∀ (a : Word) (b : Byte), crcStep a b = crcTable ((a ^^^ b.zeroExtend 32).extractLsb' 0 8) ^^^ (a >>> 8)) ∧
  (∀ i : Byte, crcTable i = crcStep 0#32 i) ∧
  crcTable 0#8 = 0x00000000#32 ∧ crcTable 1#8 = 0x77073096#32 ∧ crcTable 2#8 = 0xEE0E612C#32 ∧
  crcTable 3#8 = 0x990951BA#32 ∧ crcTable 4#8 = 0x076DC419#32 ∧ crcTable 128#8 = 0xEDB88320#32 ∧
  crcTable 255#8 = 0x2D02EF8D#32

/-- The spec's own inferences in R104, (b) and (d): the fold of a concatenation, and a step is a bijection of the accumulator. -/
def Obligations.CrcStepIsABijection : Prop :=
  (∀ (a : Word) (s t : List Byte), crcAcc a (s ++ t) = crcAcc (crcAcc a s) t) ∧
  ∀ b : Byte, Function.Bijective fun a : Word => crcStep a b

/-- R102: the checksum of a byte sequence, of the empty one, and the catalogued check value. -/
def Obligations.ChecksumHasTheCheckValue : Prop :=
  (∀ s : List Byte, crc32 s = crcAcc 0xFFFFFFFF#32 s ^^^ 0xFFFFFFFF#32) ∧ crc32 [] = 0#32 ∧
  crc32 [0x31#8, 0x32#8, 0x33#8, 0x34#8, 0x35#8, 0x36#8, 0x37#8, 0x38#8, 0x39#8] = 0xCBF43926#32

/-- R113, the spec's own inference: from any state, the four steps of `CRC.REC` leave in `CCRC` the checksum of the type bytes and the payload,
which is what `REC.BUILD` puts in `CRC` and `CCRC` for the same `TYP` and `PAY`. -/
def Obligations.ManualCrcEqualsTheBuiltOne : Prop :=
  ∀ (s : State) (r : List HostAction),
    s.pending = expandCrcRec.map (fun i => .writeReg 0 (encode i)) ++ r →
    ∃ t, Sys2Proof.core.run 4 s = .next t ∧ t.pending = r ∧
      t.ccrc = crc32 (bytesBe32 s.typ ++ payBytes s s.payLen.toNat) ∧
      (s.tok = true → ∃ u, exec .recBuild s = .next u ∧ u.crc = t.ccrc ∧ u.ccrc = t.ccrc)

/-! ### The type code -/

/-- R125: `TYPE.STRICT` takes `TIN` iff its four bytes are letters and bit 13 is clear, drops the held record and makes
`TVALID` 1; issuing it again gives the same state. The letter test comes first. -/
def Obligations.TypeStrictTakesValidCodes : Prop :=
  ∀ s : State,
    (AllLetters s.tin → s.tin.getLsbD 13 = false →
      ∃ t, exec .typeStrict s = .next t ∧ t.typ = s.tin ∧ t.tok = true ∧ t.held = false ∧ t.csrc = false ∧
        t.crcok = false ∧ t.status.getLsbD 16 = true ∧ Cleared t ∧ Frame [4] allBits s t ∧
        exec .typeStrict t = .next t) ∧
    (¬ AllLetters s.tin → FailsWith .invalidTypeByte .typeStrict s) ∧
    (AllLetters s.tin → s.tin.getLsbD 13 = true → FailsWith .reservedBitSet .typeStrict s)

/-- R126: `TYPE.RAW` takes `TIN` iff its four bytes are letters, whatever the reserved bit is. -/
def Obligations.TypeRawTakesLetterCodes : Prop :=
  ∀ s : State,
    (AllLetters s.tin →
      ∃ t, exec .typeRaw s = .next t ∧ t.typ = s.tin ∧ t.tok = true ∧ t.held = false ∧ t.csrc = false ∧
        t.crcok = false ∧ t.status.getLsbD 14 = !s.tin.getLsbD 13 ∧ t.status.getLsbD 16 = !s.tin.getLsbD 13 ∧
        Cleared t ∧ Frame [4] allBits s t) ∧
    (¬ AllLetters s.tin → FailsWith .invalidTypeByte .typeRaw s)

/-- R22: `STATUS`, bit by bit, and its reset value. -/
def Obligations.StatusBitsAreTheTable : Prop :=
  (∀ s : State,
    s.status.extractLsb' 0 4 = s.err ∧ s.status.extractLsb' 4 4 = s.cause ∧
    s.status.getLsbD 8 = s.held ∧ s.status.getLsbD 9 = s.tok ∧ s.status.getLsbD 10 = s.csrc ∧
    s.status.getLsbD 11 = s.crcok ∧ s.status.getLsbD 12 = !s.typ.getLsbD 29 ∧
    s.status.getLsbD 13 = !s.typ.getLsbD 21 ∧ s.status.getLsbD 14 = !s.typ.getLsbD 13 ∧
    s.status.getLsbD 15 = s.typ.getLsbD 5 ∧
    (s.status.getLsbD 16 = true ↔ AllLetters s.typ ∧ s.status.getLsbD 14 = true) ∧
    ∀ k, 17 ≤ k → s.status.getLsbD k = false) ∧
  State.reset.status = 0x00007000#32

/-- R124: exclusive-or of `0x20` into one type byte flips the property of that byte and no other, and never changes
whether the bytes are letters. -/
def Obligations.CategoryBitsAreIndependent : Prop :=
  ∀ v : Word,
    (isCritical (v ^^^ 0x20000000#32) = !isCritical v ∧ isPublic (v ^^^ 0x20000000#32) = isPublic v ∧
      rsvOk (v ^^^ 0x20000000#32) = rsvOk v ∧ isSafeToCopy (v ^^^ 0x20000000#32) = isSafeToCopy v) ∧
    (isCritical (v ^^^ 0x00200000#32) = isCritical v ∧ isPublic (v ^^^ 0x00200000#32) = !isPublic v ∧
      rsvOk (v ^^^ 0x00200000#32) = rsvOk v ∧ isSafeToCopy (v ^^^ 0x00200000#32) = isSafeToCopy v) ∧
    (isCritical (v ^^^ 0x00002000#32) = isCritical v ∧ isPublic (v ^^^ 0x00002000#32) = isPublic v ∧
      rsvOk (v ^^^ 0x00002000#32) = !rsvOk v ∧ isSafeToCopy (v ^^^ 0x00002000#32) = isSafeToCopy v) ∧
    (isCritical (v ^^^ 0x00000020#32) = isCritical v ∧ isPublic (v ^^^ 0x00000020#32) = isPublic v ∧
      rsvOk (v ^^^ 0x00000020#32) = rsvOk v ∧ isSafeToCopy (v ^^^ 0x00000020#32) = !isSafeToCopy v) ∧
    ∀ m ∈ [0x20000000#32, 0x00200000#32, 0x00002000#32, 0x00000020#32], AllLetters (v ^^^ m) ↔ AllLetters v

/-! ### The record framer -/

/-- R141, all of it. With a header of letters, the payload and four more bytes present, `REC.PARSE` takes the record with
its stored checksum, under `STRICT` only when that is the computed one (steps 5 and 8). When the input ends exactly at the
end of the payload, it takes the record with its computed checksum (steps 6 and 8). Every other input fails, precisely,
with the error of the first step that rejects it (steps 2, 3, 4, 5, 7). -/
def Obligations.ParseTakesOrRejectsOneRecord : Prop :=
  ∀ s : State,
    (Memory.wf s.payMem → 12 + recLen s ≤ avail s → recLetters s →
      (s.strict = true → recStored s = (recComputed s).toNat) →
      ∃ t, exec .recParse s = .next t ∧
        ParseEffect (12 + recLen s) (BitVec.ofNat 32 (recStored s)) true s t) ∧
    (Memory.wf s.payMem → 8 + recLen s = avail s → recLetters s →
      ∃ t, exec .recParse s = .next t ∧ ParseEffect (8 + recLen s) (recComputed s) false s t) ∧
    (avail s < 8 → FailsWith .shortHeader .recParse s) ∧
    (8 ≤ avail s → ¬ recLetters s → FailsWith .invalidTypeCode .recParse s) ∧
    (8 ≤ avail s → recLetters s → avail s < 8 + recLen s → FailsWith .truncatedPayload .recParse s) ∧
    (recLetters s → 12 + recLen s ≤ avail s → s.strict = true → recStored s ≠ (recComputed s).toNat →
      FailsWith .checksumMismatch .recParse s) ∧
    (recLetters s → 9 + recLen s ≤ avail s → avail s ≤ 11 + recLen s → FailsWith .partialChecksum .recParse s)

/-- R143: `REC.BUILD` holds the record of the held type code and the payload in `PAY`, with its computed checksum;
without a held type code it is `IllegalCommand` cause 3; issued again it gives the same state. -/
def Obligations.BuildHoldsTheComputedRecord : Prop :=
  ∀ s : State,
    (s.tok = true → ∃ t, exec .recBuild s = .next t ∧ t.len = s.payLen ∧
      t.acc = crcAcc 0xFFFFFFFF#32 (bytesBe32 s.typ ++ payBytes s s.payLen.toNat) ∧
      t.crc = crc32 (bytesBe32 s.typ ++ payBytes s s.payLen.toNat) ∧ t.ccrc = t.crc ∧
      t.held = true ∧ t.csrc = false ∧ t.crcok = true ∧ Cleared t ∧
      Frame [5, 6, 7, 8] (8 :: 10 :: 11 :: reportBits) s t ∧ exec .recBuild t = .next t) ∧
    (s.tok = false → FailsWith .badState .recBuild s)

/-- R144: `REC.EMIT` appends the `12 + LEN` bytes of the held record, whatever `CRC` holds, and keeps the record; without
one it is `IllegalCommand` cause 3. -/
def Obligations.EmitAppendsTheHeldRecord : Prop :=
  ∀ s : State,
    (s.held = true → ∃ t, exec .recEmit s = .next t ∧
      t.out = s.out ++ (bytesBe32 s.len ++ bytesBe32 s.typ ++ payBytes s s.len.toNat ++ bytesBe32 s.crc) ∧
      t.out.length = s.out.length + (12 + s.len.toNat) ∧ Cleared t ∧
      RegsKept [1] s t ∧ StatusKept reportBits s t ∧ InKept s t ∧ PayKept s t ∧ HostKept s t) ∧
    (s.held = false → FailsWith .badState .recEmit s)

/-- R145, the spec's own inference: a record built, emitted, loaded and parsed comes back the same in either setting of `STRICT`, with `CSRC = 1`,
`CRCOK = 1` and `RP = IN_LEN`. -/
def Obligations.BuildEmitParseRoundTrip : Prop :=
  ∀ (c : Config) (s : State) (strict : Bool), c.wf = true → Inv c s → s.tok = true →
    12 + s.payLen.toNat ≤ c.inCap →
    ∃ t u v w, exec .recBuild s = .next t ∧ exec .recEmit t = .next u ∧
      hostLoadIn c (u.out.drop s.out.length) u = .next v ∧ exec .recParse (v.setStrict strict) = .next w ∧
      w.err = 0#4 ∧ w.len = t.len ∧ w.typ = t.typ ∧ w.heldPayload = t.heldPayload ∧ w.crc = t.crc ∧
      w.csrc = true ∧ w.crcok = true ∧ w.rp = w.inLen

/-- R146, the spec's own inference: a record parsed with its checksum is emitted as the very bytes parsed, matched or not; one parsed without a
checksum is emitted with its computed one. -/
def Obligations.ParseEmitRoundTrip : Prop :=
  ∀ s t : State, Memory.wf s.payMem → exec .recParse s = .next t → t.err = 0#4 →
    ∃ u, exec .recEmit t = .next u ∧
      (t.csrc = true → u.out = s.out ++ s.inMem.slice s.rp.toNat (12 + t.len.toNat)) ∧
      (t.csrc = false → u.out = s.out ++ (s.inMem.slice s.rp.toNat (8 + t.len.toNat) ++
        bytesBe32 (crc32 (s.inMem.slice (s.rp.toNat + 4) (4 + t.len.toNat)))))

/-! ### The stream -/

/-- R160: `SIG.CHECK` moves `RP` past the signature iff the 8 bytes at `RP` are there and are its bytes. -/
def Obligations.SigCheckTestsTheEightBytes : Prop :=
  ∀ s : State,
    (8 ≤ avail s → (List.range 8).map (recByte s) = Config.signature →
      ∃ t, exec .sigCheck s = .next t ∧ t.rp.toNat = s.rp.toNat + 8 ∧ Cleared t ∧ Frame [9] reportBits s t) ∧
    (avail s < 8 → FailsWith .badSignature .sigCheck s) ∧
    (8 ≤ avail s → (List.range 8).map (recByte s) ≠ Config.signature → FailsWith .badSignature .sigCheck s)

/-- R161: `SIG.EMIT` appends the 8 bytes of the signature, in any state. -/
def Obligations.SigEmitAppendsTheSignature : Prop :=
  ∀ s : State, ∃ t, exec .sigEmit s = .next t ∧ t.out = s.out ++ Config.signature ∧
    t.out.length = s.out.length + 8 ∧ Cleared t ∧
    RegsKept [1] s t ∧ StatusKept reportBits s t ∧ InKept s t ∧ PayKept s t ∧ HostKept s t

/-- R164, the spec's own inference: a sequence emitted as a stream and parsed back is the same sequence, record by record; in the strict setting
provided every chunk carries its computed checksum. -/
def Obligations.StreamRoundTrip : Prop :=
  ∀ (c : Config) (seq : List Chunk) (s : State), c.wf = true → Memory.wf s.inMem → Memory.wf s.payMem →
    (∀ k ∈ seq, k.wf = true) → (streamBytes seq).length ≤ c.inCap →
    ∃ t, streamEmit c seq s = .next t ∧ t.out = s.out ++ streamBytes seq ∧
      ∀ v : State, Memory.wf v.inMem → Memory.wf v.payMem →
        (v.strict = false ∨ ∀ k ∈ seq, k.crc = k.computed) →
        ∃ u, streamParse c (streamBytes seq) v = .next (.parsed seq, u)

/-- The spec's own inference in R162: `STREAM.PARSE` of a buffer that fits ends: the loop never runs out, and it is `BadSignature` exactly when the
first 8 bytes are not the signature. -/
def Obligations.StreamParseEnds : Prop :=
  ∀ (c : Config) (buffer : List Byte) (s : State), c.wf = true → Memory.wf s.inMem → buffer.length ≤ c.inCap →
    ∃ r t, streamParse c buffer s = .next (r, t) ∧ r ≠ .unfinished ∧
      (r = .badSignature ↔ buffer.take 8 ≠ Config.signature)

/-! ### Host actions -/

/-- R173: a host write runs a command, sets `STRICT` or `TIN`, and to any other number has no effect. -/
def Obligations.HostWriteReachesThreeRegisters : Prop :=
  ∀ (c : Config) (s : State) (v : Word),
    hostAct c (.writeReg 0 v) s = runCommand v s ∧
    (∃ t, hostAct c (.writeReg 2 v) s = .next t ∧ t.strict = v.getLsbD 0 ∧ Frame [2] [] s t) ∧
    (∃ t, hostAct c (.writeReg 3 v) s = .next t ∧ t.tin = v ∧ Frame [3] [] s t) ∧
    (∀ n, n ∉ [0, 2, 3] → hostAct c (.writeReg n v) s = .next s)

/-- R172: a host read gives the value of the register that R11 numbers so, 0 for `CMD` and above 12, and changes no state
of the block. `CTRL` is `STRICT` in bit 0 (R25), `STATUS` its own statement's. (That the host's list of answers holds
the value is the model's form, log 2.) -/
def Obligations.HostReadGivesTheRegister : Prop :=
  ∀ (c : Config) (s : State) (n : Nat), ∃ t, hostAct c (.readReg n) s = .next t ∧
    t.answers = s.answers ++ [.word (s.readReg n)] ∧ { t with answers := s.answers } = s ∧
    s.readReg 0 = 0#32 ∧ s.readReg 1 = s.status ∧ s.readReg 2 = s.ctrl ∧ s.readReg 3 = s.tin ∧ s.readReg 4 = s.typ ∧
    s.readReg 5 = s.len ∧ s.readReg 6 = s.crc ∧ s.readReg 7 = s.ccrc ∧ s.readReg 8 = s.acc ∧ s.readReg 9 = s.rp ∧
    s.readReg 10 = s.inLen ∧ s.readReg 11 = s.payLen ∧ s.readReg 12 = s.epos ∧ (12 < n → s.readReg n = 0#32) ∧
    s.ctrl.getLsbD 0 = s.strict ∧ ∀ k, 1 ≤ k → s.ctrl.getLsbD k = false

/-- R174: a load of `IN` makes its bytes the valid part, sets `IN_LEN`, puts `RP` at 0 and changes nothing else. A longer
sequence is no move of the host (the refusal is the model's form, log 3). -/
def Obligations.HostLoadInReplacesTheInput : Prop :=
  ∀ (c : Config) (s : State) (b : List Byte), c.wf = true → Memory.wf s.inMem →
    (b.length ≤ c.inCap → ∃ t, hostAct c (.loadIn b) s = .next t ∧
      t.inMem.slice 0 t.inLen.toNat = b ∧ t.inLen.toNat = b.length ∧ t.rp = 0#32 ∧
      (∀ a, b.length ≤ a → t.inMem.read a = s.inMem.read a) ∧
      RegsKept [9, 10] s t ∧ StatusKept [] s t ∧ PayKept s t ∧ t.out = s.out ∧ HostKept s t) ∧
    (c.inCap < b.length → hostAct c (.loadIn b) s = .refused .hostMoveNotEnabled)

/-- R175: a load of `PAY` makes its bytes the valid part, sets `PAY_LEN` and drops the held record; `TYP`, `TOK`, `LEN`
and `CRC` are kept. A longer sequence is no move of the host (log 3). -/
def Obligations.HostLoadPayDropsTheRecord : Prop :=
  ∀ (c : Config) (s : State) (b : List Byte), c.wf = true → Memory.wf s.payMem →
    (b.length ≤ c.payCap → ∃ t, hostAct c (.loadPay b) s = .next t ∧
      t.payload = b ∧ t.payLen.toNat = b.length ∧ t.held = false ∧ t.csrc = false ∧ t.crcok = false ∧
      (∀ a, b.length ≤ a → t.payMem.read a = s.payMem.read a) ∧
      RegsKept [1, 11] s t ∧ StatusKept [8, 10, 11] s t ∧ InKept s t ∧ t.out = s.out ∧ HostKept s t) ∧
    (c.payCap < b.length → hostAct c (.loadPay b) s = .refused .hostMoveNotEnabled)

/-- R176 and R177: a payload read gives the valid part of `PAY` and changes no state of the block; a drain gives the
first `k` bytes of `OUT` and removes them. (The answers' list is the model's form, log 2.) -/
def Obligations.HostReadsPayloadAndDrainsOutput : Prop :=
  ∀ (c : Config) (s : State),
    (∃ t, hostAct c .readPay s = .next t ∧ t.answers = s.answers ++ [.bytes (payBytes s s.payLen.toNat)] ∧
      { t with answers := s.answers } = s) ∧
    ∀ k, k ≤ s.out.length → ∃ t e, hostAct c (.drainOut k) s = .next t ∧ s.out = e ++ t.out ∧ e.length = k ∧
      t.answers = s.answers ++ [.bytes e] ∧ { t with out := s.out, answers := s.answers } = s

/-! ### Invariants -/

/-- R28, the spec's own inference, at reset: the invariants hold in the reset state, with the host about to do anything at all. -/
def Obligations.InvariantsHoldAtReset : Prop :=
  ∀ (p : List HostAction) (judged : Bool),
    Inv Config.machine (State.reset.setPending p) ∧ Judged judged (State.reset.setPending p)

/-- R28, the spec's own inference: every step keeps the invariants (I-a) to (I-h), (I-f) with the fact it speaks of carried along the run, and the
model's storage in canonical form and within capacity. -/
def Obligations.EveryStepKeepsTheInvariants : Prop :=
  ∀ (s t : State) (judged : Bool), Inv Config.machine s → Judged judged s → step s = .next t →
    Inv Config.machine t ∧ Judged (nextJudged judged s t) t

/-- R11 (`CRCOK`), R23: while a record is held, `CRCOK` says whether it carries its computed checksum, and every step
keeps that. Not a rule of the spec in these words: it follows from what writes `CRCOK`. -/
def Obligations.CrcokTellsWhetherTheHeldRecordIsSound : Prop :=
  ∀ s t : State, Inv Config.machine s → (s.held = true → (s.crcok = true ↔ s.crc = s.heldChecksum)) →
    step s = .next t → t.held = true → (t.crcok = true ↔ t.crc = t.heldChecksum)

/-! ### Rules over all commands and steps -/

/-- R200, R214: every command, in every state, commits with a cleared report or fails precisely. -/
def Obligations.EveryCommandCommitsOrFailsPrecisely : Prop :=
  ∀ (i : Instr) (s : State), ∃ t, exec i s = .next t ∧ (Cleared t ∨ ∃ f, FailsWith f i s ∧ t.err ≠ 0#4)

/-- R213: `EPOS` is written by every failing command with the value of `RP` at its start, and by nothing else except
reset. -/
def Obligations.EposIsWrittenByFailuresAndResetOnly : Prop :=
  ∀ s t : State, step s = .next t →
    (∀ w r, s.pending = .writeReg 0 w :: r → t.err ≠ 0#4 → t.epos = s.rp) ∧
    ((∀ w r, s.pending = .writeReg 0 w :: r → t.err = 0#4 ∧ decode w ≠ .ok .sysReset) →
      (∀ r, s.pending ≠ .hardReset :: r) → t.epos = s.epos)

/-- R201, R202, R210: which command raises which error, with which cause; the reserved and the host-only codes are never
written. -/
def Obligations.ErrorsComeFromTheirCommands : Prop :=
  ∀ (i : Instr) (s t : State), exec i s = .next t →
    t.err ∈ [0#4, 1#4, 2#4, 4#4, 5#4, 6#4, 9#4, 15#4] ∧
    (t.err = 1#4 → i = .typeStrict ∨ i = .typeRaw) ∧ (t.err = 2#4 → i = .typeStrict) ∧
    (t.err = 4#4 → i = .recParse ∧ t.cause ∈ [1#4, 2#4, 3#4]) ∧ (t.err = 5#4 → i = .recParse) ∧
    (t.err = 6#4 → i = .sigCheck) ∧ (t.err = 9#4 → i = .recParse ∧ s.strict = true) ∧
    (t.err = 15#4 → t.cause = 3#4 ∧
      ((i = .recBuild ∧ s.tok = false) ∨ (i = .recEmit ∧ s.held = false) ∨ (i = .crcVerify ∧ s.held = false))) ∧
    (t.cause ≠ 0#4 → t.err = 4#4 ∨ t.err = 15#4)

/-- The spec's own inference in R215: reissuing a failed command without changing its inputs fails the same way, and leaves the same state. -/
def Obligations.AFailedCommandFailsAgain : Prop :=
  ∀ (i : Instr) (s t : State), exec i s = .next t → t.err ≠ 0#4 → exec i t = .next t

/-- R11, the "written by" column, for commands (a failing one writes `STATUS` and `EPOS`) and host actions: no register
changes but by its writers. -/
def Obligations.RegistersChangeOnlyByTheirWriters : Prop :=
  (∀ (i : Instr) (s t : State), exec i s = .next t →
    (t.err = 0#4 → RegsKept (writtenBy i) s t) ∧ (t.err ≠ 0#4 → RegsKept [1, 12] s t)) ∧
  (∀ (c : Config) (a : HostAction) (s t : State), (∀ w, a ≠ .writeReg 0 w) → hostAct c a s = .next t →
    RegsKept (writtenByHost a) s t)

/-- The writing half of R52, the spec's own inference, and R27: no command writes `IN`; only `REC.PARSE` writes `PAY`; `OUT` is only appended to, by `REC.EMIT` its
`12 + LEN` bytes and by `SIG.EMIT` its 8. -/
def Obligations.CommandsWriteTheirStoresOnly : Prop :=
  ∀ (i : Instr) (s t : State), exec i s = .next t →
    InKept s t ∧ (i ≠ .recParse → PayKept s t) ∧
    ∃ e, t.out = s.out ++ e ∧ (e ≠ [] → (i = .recEmit ∧ e.length = 12 + s.len.toNat) ∨ (i = .sigEmit ∧ e.length = 8))

/-- R18: what moves `RP`. It goes to 0 by `HostLoadIn` and reset, forward by 8 by a successful `SIG.CHECK` and by the
record's size, at least 8 and within the input, by a successful `REC.PARSE`; nothing else changes it. -/
def Obligations.ReadCursorMovesOnlyAsStated : Prop :=
  ∀ s t : State, step s = .next t →
    t.rp = s.rp ∨ (t.rp = 0#32 ∧ ((∃ b r, s.pending = .loadIn b :: r) ∨ (∃ r, s.pending = .hardReset :: r) ∨
        NextSucceeds .sysReset s t)) ∨
      (NextSucceeds .sigCheck s t ∧ t.rp.toNat = s.rp.toNat + 8 ∧ t.rp.toNat ≤ s.inLen.toNat) ∨
      (NextSucceeds .recParse s t ∧
        t.rp.toNat = s.rp.toNat + (if t.csrc = true then 12 else 8) + t.len.toNat ∧ t.rp.toNat ≤ s.inLen.toNat)

/-- R128, R140: a held record is immutable. While a step neither drops it nor is a successful `REC.PARSE` or
`REC.BUILD`, its length, type code, payload and checksum stay. -/
def Obligations.HeldRecordIsImmutable : Prop :=
  ∀ s t : State, step s = .next t → s.held = true → t.held = true →
    ¬ NextSucceeds .recParse s t → ¬ NextSucceeds .recBuild s t →
    t.len = s.len ∧ t.typ = s.typ ∧ t.heldPayload = s.heldPayload ∧ t.crc = s.crc

/-- R27: bytes of `IN` at or beyond `IN_LEN` and of `PAY` at or beyond `PAY_LEN` are read by no rule. Two states that
differ in them alone step alike, to states that differ in such bytes alone. -/
def Obligations.BytesWithoutValueAreNeverRead : Prop :=
  ∀ s t s' : State, Inv Config.machine s → Inv Config.machine t → SameReadable s t → step s = .next s' →
    ∃ t', step t = .next t' ∧ SameReadable s' t'

/-- R177: the block never reads `OUT`. What a command does is the same whatever `OUT` holds, and it appends the same
bytes. -/
def Obligations.OutputNeverChangesACommandsResult : Prop :=
  ∀ (i : Instr) (s t : State), exec i s = .next t →
    ∃ e, t.out = s.out ++ e ∧ ∀ o, exec i { s with out := o } = .next { t with out := o ++ e }

/-! ### The host's sequence -/

/-- The property of R192 with the spec's own proviso: a chunk appended, with no earlier one of its type, is the one found by its type. -/
def Obligations.AppendThenFindByType : Prop :=
  ∀ (seq : List Chunk) (k : Chunk), (∀ j ∈ seq, j.typ ≠ k.typ) → chunkByType (appendChunk seq k) k.typ = some k

/-- R189: the first chunk of the type and no other is removed, the order of the rest kept, and a miss is
`ChunkNotFound`. -/
def Obligations.RemoveTakesTheFirstOfItsType : Prop :=
  ∀ (seq : List Chunk) (t : Word),
    (∀ k r, removeFirstChunk t seq = .ok (k, r) →
      ∃ p q, seq = p ++ k :: q ∧ r = p ++ q ∧ k.typ = t ∧ ∀ j ∈ p, j.typ ≠ t) ∧
    (∀ e, removeFirstChunk t seq = .error e ↔ e = .chunkNotFound ∧ ∀ j ∈ seq, j.typ ≠ t)

/-- The second property of R192 with the spec's own proviso: removing a type that one chunk has, then removing it again, fails with `ChunkNotFound`. -/
def Obligations.RemoveThenNotFound : Prop :=
  ∀ (p q : List Chunk) (k : Chunk), (∀ j ∈ p ++ q, j.typ ≠ k.typ) →
    removeFirstChunk k.typ (p ++ k :: q) = .ok (k, p ++ q) ∧
      removeFirstChunk k.typ (p ++ q) = .error .chunkNotFound

/-- R180, R181, R183: text of five or more characters is `TooLong` before anything reaches the block; four letters become
the held type code whose text they are; four characters with a non-letter are `InvalidTypeByte`, one above 255 by the
host's own report (the model's choice, log 15). -/
def Obligations.TextBecomesATypeCode : Prop :=
  ∀ (text : List Char) (s : State),
    (4 < text.length → parseFromText text s = .next (.failed .tooLong, s)) ∧
    (text.length = 4 → (∀ ch ∈ text, ch.toNat < 256 ∧ AsciiLetter (BitVec.ofNat 8 ch.toNat)) →
      ∃ v t, parseFromText text s = .next (.typeCode v, t) ∧ t.typ = v ∧ t.tok = true ∧ renderAsText v = text) ∧
    (text.length = 4 → (∃ ch ∈ text, ¬ (ch.toNat < 256 ∧ AsciiLetter (BitVec.ofNat 8 ch.toNat))) →
      ∃ t, parseFromText text s = .next (.failed .invalidTypeByte, t) ∧ t.typ = s.typ)

/-! ### What commands read, and chunks built from text -/

/-- The reading half of R52, the spec's own inference: a command depends on no byte of `IN` or `PAY` but those that R52
has it read. With any other bytes elsewhere it gives the same state, those bytes staying where they are (in `PAY`, where
`REC.PARSE` does not write). -/
def Obligations.CommandsReadTheirStoresOnly : Prop :=
  ∀ (i : Instr) (s t : State) (m p : Memory), exec i s = .next t →
    (∀ a, ReadsIn i s a → m.read a = s.inMem.read a) → (∀ a, ReadsPay i s a → p.read a = s.payMem.read a) →
    ∃ u, exec i { s with inMem := m, payMem := p } = .next u ∧ u.inMem = m ∧ (i ≠ .recParse → u.payMem = p) ∧
      { u with inMem := t.inMem, payMem := t.payMem } = t

/-- R185: four letters and a payload text become the held record of that type code and the text's UTF-8 bytes, by either
route; on the strict route a type code with the reserved bit set is `ReservedBitSet`, and neither type code, held record
nor payload is touched. (The library's UTF-8 encoder is log 15's.) -/
def Obligations.TextBuildsAChunk : Prop :=
  ∀ (c : Config) (r : TypeRoute) (typ : List Char) (text : String) (s : State), c.wf = true → Memory.wf s.payMem →
    typ.length = 4 → (∀ ch ∈ typ, ch.toNat < 256 ∧ AsciiLetter (BitVec.ofNat 8 ch.toNat)) →
    (utf8Bytes text).length ≤ c.payCap →
    (r = .raw ∨ (textWord typ).getLsbD 13 = false →
      ∃ t, buildFromText c r typ text s = .next (.typeCode (textWord typ), t) ∧ t.typ = textWord typ ∧
        renderAsText t.typ = typ ∧ t.held = true ∧ t.payload = utf8Bytes text ∧
        t.len.toNat = (utf8Bytes text).length ∧ t.crc = crc32 (bytesBe32 (textWord typ) ++ utf8Bytes text) ∧
        t.csrc = false ∧ t.crcok = true ∧ Cleared t) ∧
    (r = .strict → (textWord typ).getLsbD 13 = true →
      ∃ t, buildFromText c r typ text s = .next (.failed .reservedBitSet, t) ∧ t.typ = s.typ ∧ t.held = s.held ∧
        t.payload = s.payload ∧ t.len = s.len ∧ t.crc = s.crc ∧ t.out = s.out)
end

