-- ==== Sys2Proof/Laws/Bytes.lean ====
section
/-! SUPPORT. The byte order conversions undo each other, type bytes are letters one by one, and the CRC fold cuts. -/

namespace Sys2Proof.Machine

@[simp] theorem bytesBe32_length (v : Word) : (bytesBe32 v).length = 4 := rfl

/-- `be32` undoes `bytes_be32` (R8). -/
@[simp] theorem be32_bytesBe32 (v : Word) : be32 (bytesBe32 v) = v := by
  simp only [be32, bytesBe32]
  ext i hi
  simp only [BitVec.getElem_append, BitVec.getElem_extractLsb']
  rw [← BitVec.getLsbD_eq_getElem]
  split
  · simp
  · split
    · congr 1; omega
    · split
      · congr 1; omega
      · congr 1; omega

/-- Taking the bytes out of a concatenation of four. -/
theorem extract_append4 (a b c d : Byte) :
    (a ++ b ++ c ++ d).extractLsb' 24 8 = a ∧ (a ++ b ++ c ++ d).extractLsb' 16 8 = b ∧
      (a ++ b ++ c ++ d).extractLsb' 8 8 = c ∧ (a ++ b ++ c ++ d).extractLsb' 0 8 = d := by
  refine ⟨?_, ?_, ?_, ?_⟩ <;>
    · refine BitVec.eq_of_getLsbD_eq fun i hi => ?_
      simp only [BitVec.getLsbD_extractLsb', hi, decide_true, Bool.true_and, BitVec.getLsbD_append]
      split <;> (try split) <;> (try split) <;> first | omega | (congr 1; omega)

/-- `bytes_be32` undoes `be32` on four bytes (R8). -/
theorem bytesBe32_be32 (t : List Byte) (h : t.length = 4) : bytesBe32 (be32 t) = t := by
  match t, h with
  | [a, b, c, d], _ =>
    obtain ⟨ha, hb, hc, hd⟩ := extract_append4 a b c d
    exact congrArg₂ _ ha (congrArg₂ _ hb (congrArg₂ _ hc (congrArg₂ _ hd rfl)))

/-- The bytes of a packed type code, one by one (R13). -/
theorem bytesBe32_eq (v : Word) : bytesBe32 v = [typeByte v 0, typeByte v 1, typeByte v 2, typeByte v 3] := rfl

/-- Four letters are a letter each (R120). -/
theorem letters_bytesBe32 (v : Word) : letters (bytesBe32 v) = true ↔ ∀ i, isLetter (typeByte v i) = true := by
  rw [bytesBe32_eq]
  simp only [letters, List.all_cons, List.all_nil, Bool.and_true, Bool.and_eq_true]
  constructor
  · rintro ⟨h0, h1, h2, h3⟩ i
    fin_cases i <;> assumption
  · exact fun h => ⟨h 0, h 1, h 2, h 3⟩

@[simp] theorem field_length (s : List Byte) (o n : Nat) : (field s o n).length = min n (s.length - o) := by
  simp [field]

/-- The first `n` bytes of a concatenation whose first part has `n`. -/
theorem field_append_left (s t : List Byte) (n : Nat) (h : s.length = n) : field (s ++ t) 0 n = s := by
  simp [field, ← h]

/-- Bytes past a first part are the second part's. -/
theorem field_append_right (s t : List Byte) (o n k : Nat) (h : s.length = k) (ho : k ≤ o) :
    field (s ++ t) o n = field t (o - k) n := by
  simp [field, List.drop_append, ← h, List.drop_eq_nil_of_le (h ▸ ho : s.length ≤ o)]

end Sys2Proof.Machine
end

