-- ==== Sys2Proof/Laws/Config.lean ====
section
/-! SUPPORT. The machine's capacities are legal, whatever they are (00_scope.md R6). -/

namespace Sys2Proof

theorem Config.reference_wf : Config.wf Config.reference = true := by decide

theorem Config.machine_wf : Config.wf Config.machine = true := by
  unfold Config.machine
  split
  · assumption
  · exact Config.reference_wf

/-- The constraints of R6, as the numbers' own facts. -/
theorem Config.wf_bounds {c : Config} (h : Config.wf c = true) :
    12 ≤ c.inCap ∧ c.inCap ≤ 2 ^ 32 - 1 ∧ c.inCap - 8 ≤ c.payCap ∧ c.payCap ≤ 2 ^ 32 - 1 := by
  simpa [Config.wf, and_assoc] using h

@[simp] theorem Config.signature_length : Config.signature.length = 8 := rfl

end Sys2Proof
end

