-- ==== Sys2Proof/Laws/Crc.lean ====
section
/-! SUPPORT. The CRC fold, one byte at a time and through the names the commands use. -/

namespace Sys2Proof.Machine

@[simp] theorem crcAcc_nil (a : Word) : crcAcc a [] = a := rfl

@[simp] theorem crcAcc_cons (a : Word) (b : Byte) (s : List Byte) : crcAcc a (b :: s) = crcAcc (crcStep a b) s := rfl

/-- The checksum is the complement of the accumulator over the same bytes (R102). -/
theorem crc32_eq (s : List Byte) : crcAcc Config.crcInit s ^^^ Config.crcXorOut = crc32 s := rfl

end Sys2Proof.Machine
end

