-- ==== Sys2Proof/Laws/State.lean ====
section
/-! SUPPORT. For each named update of the state, what each field is after it. -/

namespace Sys2Proof.Machine

section Updates

variable (s : State)

/-! `State.fail` -/

@[simp] theorem State.fail_err (f : Failure) : (s.fail f).err = f.name.code := rfl
@[simp] theorem State.fail_cause (f : Failure) : (s.fail f).cause = f.causeCode := rfl
@[simp] theorem State.fail_held (f : Failure) : (s.fail f).held = s.held := rfl
@[simp] theorem State.fail_tok (f : Failure) : (s.fail f).tok = s.tok := rfl
@[simp] theorem State.fail_csrc (f : Failure) : (s.fail f).csrc = s.csrc := rfl
@[simp] theorem State.fail_crcok (f : Failure) : (s.fail f).crcok = s.crcok := rfl
@[simp] theorem State.fail_strict (f : Failure) : (s.fail f).strict = s.strict := rfl
@[simp] theorem State.fail_tin (f : Failure) : (s.fail f).tin = s.tin := rfl
@[simp] theorem State.fail_typ (f : Failure) : (s.fail f).typ = s.typ := rfl
@[simp] theorem State.fail_len (f : Failure) : (s.fail f).len = s.len := rfl
@[simp] theorem State.fail_crc (f : Failure) : (s.fail f).crc = s.crc := rfl
@[simp] theorem State.fail_ccrc (f : Failure) : (s.fail f).ccrc = s.ccrc := rfl
@[simp] theorem State.fail_acc (f : Failure) : (s.fail f).acc = s.acc := rfl
@[simp] theorem State.fail_rp (f : Failure) : (s.fail f).rp = s.rp := rfl
@[simp] theorem State.fail_inLen (f : Failure) : (s.fail f).inLen = s.inLen := rfl
@[simp] theorem State.fail_payLen (f : Failure) : (s.fail f).payLen = s.payLen := rfl
@[simp] theorem State.fail_epos (f : Failure) : (s.fail f).epos = s.rp := rfl
@[simp] theorem State.fail_inMem (f : Failure) : (s.fail f).inMem = s.inMem := rfl
@[simp] theorem State.fail_payMem (f : Failure) : (s.fail f).payMem = s.payMem := rfl
@[simp] theorem State.fail_out (f : Failure) : (s.fail f).out = s.out := rfl
@[simp] theorem State.fail_pending (f : Failure) : (s.fail f).pending = s.pending := rfl
@[simp] theorem State.fail_answers (f : Failure) : (s.fail f).answers = s.answers := rfl

/-! `State.commit` -/

@[simp] theorem State.commit_err : (s.commit).err = 0#4 := rfl
@[simp] theorem State.commit_cause : (s.commit).cause = 0#4 := rfl
@[simp] theorem State.commit_held : (s.commit).held = s.held := rfl
@[simp] theorem State.commit_tok : (s.commit).tok = s.tok := rfl
@[simp] theorem State.commit_csrc : (s.commit).csrc = s.csrc := rfl
@[simp] theorem State.commit_crcok : (s.commit).crcok = s.crcok := rfl
@[simp] theorem State.commit_strict : (s.commit).strict = s.strict := rfl
@[simp] theorem State.commit_tin : (s.commit).tin = s.tin := rfl
@[simp] theorem State.commit_typ : (s.commit).typ = s.typ := rfl
@[simp] theorem State.commit_len : (s.commit).len = s.len := rfl
@[simp] theorem State.commit_crc : (s.commit).crc = s.crc := rfl
@[simp] theorem State.commit_ccrc : (s.commit).ccrc = s.ccrc := rfl
@[simp] theorem State.commit_acc : (s.commit).acc = s.acc := rfl
@[simp] theorem State.commit_rp : (s.commit).rp = s.rp := rfl
@[simp] theorem State.commit_inLen : (s.commit).inLen = s.inLen := rfl
@[simp] theorem State.commit_payLen : (s.commit).payLen = s.payLen := rfl
@[simp] theorem State.commit_epos : (s.commit).epos = s.epos := rfl
@[simp] theorem State.commit_inMem : (s.commit).inMem = s.inMem := rfl
@[simp] theorem State.commit_payMem : (s.commit).payMem = s.payMem := rfl
@[simp] theorem State.commit_out : (s.commit).out = s.out := rfl
@[simp] theorem State.commit_pending : (s.commit).pending = s.pending := rfl
@[simp] theorem State.commit_answers : (s.commit).answers = s.answers := rfl

/-! `State.setAcc` -/

@[simp] theorem State.setAcc_err (v : Word) : (s.setAcc v).err = s.err := rfl
@[simp] theorem State.setAcc_cause (v : Word) : (s.setAcc v).cause = s.cause := rfl
@[simp] theorem State.setAcc_held (v : Word) : (s.setAcc v).held = s.held := rfl
@[simp] theorem State.setAcc_tok (v : Word) : (s.setAcc v).tok = s.tok := rfl
@[simp] theorem State.setAcc_csrc (v : Word) : (s.setAcc v).csrc = s.csrc := rfl
@[simp] theorem State.setAcc_crcok (v : Word) : (s.setAcc v).crcok = s.crcok := rfl
@[simp] theorem State.setAcc_strict (v : Word) : (s.setAcc v).strict = s.strict := rfl
@[simp] theorem State.setAcc_tin (v : Word) : (s.setAcc v).tin = s.tin := rfl
@[simp] theorem State.setAcc_typ (v : Word) : (s.setAcc v).typ = s.typ := rfl
@[simp] theorem State.setAcc_len (v : Word) : (s.setAcc v).len = s.len := rfl
@[simp] theorem State.setAcc_crc (v : Word) : (s.setAcc v).crc = s.crc := rfl
@[simp] theorem State.setAcc_ccrc (v : Word) : (s.setAcc v).ccrc = s.ccrc := rfl
@[simp] theorem State.setAcc_acc (v : Word) : (s.setAcc v).acc = v := rfl
@[simp] theorem State.setAcc_rp (v : Word) : (s.setAcc v).rp = s.rp := rfl
@[simp] theorem State.setAcc_inLen (v : Word) : (s.setAcc v).inLen = s.inLen := rfl
@[simp] theorem State.setAcc_payLen (v : Word) : (s.setAcc v).payLen = s.payLen := rfl
@[simp] theorem State.setAcc_epos (v : Word) : (s.setAcc v).epos = s.epos := rfl
@[simp] theorem State.setAcc_inMem (v : Word) : (s.setAcc v).inMem = s.inMem := rfl
@[simp] theorem State.setAcc_payMem (v : Word) : (s.setAcc v).payMem = s.payMem := rfl
@[simp] theorem State.setAcc_out (v : Word) : (s.setAcc v).out = s.out := rfl
@[simp] theorem State.setAcc_pending (v : Word) : (s.setAcc v).pending = s.pending := rfl
@[simp] theorem State.setAcc_answers (v : Word) : (s.setAcc v).answers = s.answers := rfl

/-! `State.setCcrc` -/

@[simp] theorem State.setCcrc_err (v : Word) : (s.setCcrc v).err = s.err := rfl
@[simp] theorem State.setCcrc_cause (v : Word) : (s.setCcrc v).cause = s.cause := rfl
@[simp] theorem State.setCcrc_held (v : Word) : (s.setCcrc v).held = s.held := rfl
@[simp] theorem State.setCcrc_tok (v : Word) : (s.setCcrc v).tok = s.tok := rfl
@[simp] theorem State.setCcrc_csrc (v : Word) : (s.setCcrc v).csrc = s.csrc := rfl
@[simp] theorem State.setCcrc_crcok (v : Word) : (s.setCcrc v).crcok = s.crcok := rfl
@[simp] theorem State.setCcrc_strict (v : Word) : (s.setCcrc v).strict = s.strict := rfl
@[simp] theorem State.setCcrc_tin (v : Word) : (s.setCcrc v).tin = s.tin := rfl
@[simp] theorem State.setCcrc_typ (v : Word) : (s.setCcrc v).typ = s.typ := rfl
@[simp] theorem State.setCcrc_len (v : Word) : (s.setCcrc v).len = s.len := rfl
@[simp] theorem State.setCcrc_crc (v : Word) : (s.setCcrc v).crc = s.crc := rfl
@[simp] theorem State.setCcrc_ccrc (v : Word) : (s.setCcrc v).ccrc = v := rfl
@[simp] theorem State.setCcrc_acc (v : Word) : (s.setCcrc v).acc = s.acc := rfl
@[simp] theorem State.setCcrc_rp (v : Word) : (s.setCcrc v).rp = s.rp := rfl
@[simp] theorem State.setCcrc_inLen (v : Word) : (s.setCcrc v).inLen = s.inLen := rfl
@[simp] theorem State.setCcrc_payLen (v : Word) : (s.setCcrc v).payLen = s.payLen := rfl
@[simp] theorem State.setCcrc_epos (v : Word) : (s.setCcrc v).epos = s.epos := rfl
@[simp] theorem State.setCcrc_inMem (v : Word) : (s.setCcrc v).inMem = s.inMem := rfl
@[simp] theorem State.setCcrc_payMem (v : Word) : (s.setCcrc v).payMem = s.payMem := rfl
@[simp] theorem State.setCcrc_out (v : Word) : (s.setCcrc v).out = s.out := rfl
@[simp] theorem State.setCcrc_pending (v : Word) : (s.setCcrc v).pending = s.pending := rfl
@[simp] theorem State.setCcrc_answers (v : Word) : (s.setCcrc v).answers = s.answers := rfl

/-! `State.setCrcok` -/

@[simp] theorem State.setCrcok_err (b : Bool) : (s.setCrcok b).err = s.err := rfl
@[simp] theorem State.setCrcok_cause (b : Bool) : (s.setCrcok b).cause = s.cause := rfl
@[simp] theorem State.setCrcok_held (b : Bool) : (s.setCrcok b).held = s.held := rfl
@[simp] theorem State.setCrcok_tok (b : Bool) : (s.setCrcok b).tok = s.tok := rfl
@[simp] theorem State.setCrcok_csrc (b : Bool) : (s.setCrcok b).csrc = s.csrc := rfl
@[simp] theorem State.setCrcok_crcok (b : Bool) : (s.setCrcok b).crcok = b := rfl
@[simp] theorem State.setCrcok_strict (b : Bool) : (s.setCrcok b).strict = s.strict := rfl
@[simp] theorem State.setCrcok_tin (b : Bool) : (s.setCrcok b).tin = s.tin := rfl
@[simp] theorem State.setCrcok_typ (b : Bool) : (s.setCrcok b).typ = s.typ := rfl
@[simp] theorem State.setCrcok_len (b : Bool) : (s.setCrcok b).len = s.len := rfl
@[simp] theorem State.setCrcok_crc (b : Bool) : (s.setCrcok b).crc = s.crc := rfl
@[simp] theorem State.setCrcok_ccrc (b : Bool) : (s.setCrcok b).ccrc = s.ccrc := rfl
@[simp] theorem State.setCrcok_acc (b : Bool) : (s.setCrcok b).acc = s.acc := rfl
@[simp] theorem State.setCrcok_rp (b : Bool) : (s.setCrcok b).rp = s.rp := rfl
@[simp] theorem State.setCrcok_inLen (b : Bool) : (s.setCrcok b).inLen = s.inLen := rfl
@[simp] theorem State.setCrcok_payLen (b : Bool) : (s.setCrcok b).payLen = s.payLen := rfl
@[simp] theorem State.setCrcok_epos (b : Bool) : (s.setCrcok b).epos = s.epos := rfl
@[simp] theorem State.setCrcok_inMem (b : Bool) : (s.setCrcok b).inMem = s.inMem := rfl
@[simp] theorem State.setCrcok_payMem (b : Bool) : (s.setCrcok b).payMem = s.payMem := rfl
@[simp] theorem State.setCrcok_out (b : Bool) : (s.setCrcok b).out = s.out := rfl
@[simp] theorem State.setCrcok_pending (b : Bool) : (s.setCrcok b).pending = s.pending := rfl
@[simp] theorem State.setCrcok_answers (b : Bool) : (s.setCrcok b).answers = s.answers := rfl

/-! `State.dropRecord` -/

@[simp] theorem State.dropRecord_err : (s.dropRecord).err = s.err := rfl
@[simp] theorem State.dropRecord_cause : (s.dropRecord).cause = s.cause := rfl
@[simp] theorem State.dropRecord_held : (s.dropRecord).held = false := rfl
@[simp] theorem State.dropRecord_tok : (s.dropRecord).tok = s.tok := rfl
@[simp] theorem State.dropRecord_csrc : (s.dropRecord).csrc = false := rfl
@[simp] theorem State.dropRecord_crcok : (s.dropRecord).crcok = false := rfl
@[simp] theorem State.dropRecord_strict : (s.dropRecord).strict = s.strict := rfl
@[simp] theorem State.dropRecord_tin : (s.dropRecord).tin = s.tin := rfl
@[simp] theorem State.dropRecord_typ : (s.dropRecord).typ = s.typ := rfl
@[simp] theorem State.dropRecord_len : (s.dropRecord).len = s.len := rfl
@[simp] theorem State.dropRecord_crc : (s.dropRecord).crc = s.crc := rfl
@[simp] theorem State.dropRecord_ccrc : (s.dropRecord).ccrc = s.ccrc := rfl
@[simp] theorem State.dropRecord_acc : (s.dropRecord).acc = s.acc := rfl
@[simp] theorem State.dropRecord_rp : (s.dropRecord).rp = s.rp := rfl
@[simp] theorem State.dropRecord_inLen : (s.dropRecord).inLen = s.inLen := rfl
@[simp] theorem State.dropRecord_payLen : (s.dropRecord).payLen = s.payLen := rfl
@[simp] theorem State.dropRecord_epos : (s.dropRecord).epos = s.epos := rfl
@[simp] theorem State.dropRecord_inMem : (s.dropRecord).inMem = s.inMem := rfl
@[simp] theorem State.dropRecord_payMem : (s.dropRecord).payMem = s.payMem := rfl
@[simp] theorem State.dropRecord_out : (s.dropRecord).out = s.out := rfl
@[simp] theorem State.dropRecord_pending : (s.dropRecord).pending = s.pending := rfl
@[simp] theorem State.dropRecord_answers : (s.dropRecord).answers = s.answers := rfl

/-! `State.holdTypeCode` -/

@[simp] theorem State.holdTypeCode_err (v : Word) : (s.holdTypeCode v).err = s.err := rfl
@[simp] theorem State.holdTypeCode_cause (v : Word) : (s.holdTypeCode v).cause = s.cause := rfl
@[simp] theorem State.holdTypeCode_held (v : Word) : (s.holdTypeCode v).held = s.held := rfl
@[simp] theorem State.holdTypeCode_tok (v : Word) : (s.holdTypeCode v).tok = true := rfl
@[simp] theorem State.holdTypeCode_csrc (v : Word) : (s.holdTypeCode v).csrc = s.csrc := rfl
@[simp] theorem State.holdTypeCode_crcok (v : Word) : (s.holdTypeCode v).crcok = s.crcok := rfl
@[simp] theorem State.holdTypeCode_strict (v : Word) : (s.holdTypeCode v).strict = s.strict := rfl
@[simp] theorem State.holdTypeCode_tin (v : Word) : (s.holdTypeCode v).tin = s.tin := rfl
@[simp] theorem State.holdTypeCode_typ (v : Word) : (s.holdTypeCode v).typ = v := rfl
@[simp] theorem State.holdTypeCode_len (v : Word) : (s.holdTypeCode v).len = s.len := rfl
@[simp] theorem State.holdTypeCode_crc (v : Word) : (s.holdTypeCode v).crc = s.crc := rfl
@[simp] theorem State.holdTypeCode_ccrc (v : Word) : (s.holdTypeCode v).ccrc = s.ccrc := rfl
@[simp] theorem State.holdTypeCode_acc (v : Word) : (s.holdTypeCode v).acc = s.acc := rfl
@[simp] theorem State.holdTypeCode_rp (v : Word) : (s.holdTypeCode v).rp = s.rp := rfl
@[simp] theorem State.holdTypeCode_inLen (v : Word) : (s.holdTypeCode v).inLen = s.inLen := rfl
@[simp] theorem State.holdTypeCode_payLen (v : Word) : (s.holdTypeCode v).payLen = s.payLen := rfl
@[simp] theorem State.holdTypeCode_epos (v : Word) : (s.holdTypeCode v).epos = s.epos := rfl
@[simp] theorem State.holdTypeCode_inMem (v : Word) : (s.holdTypeCode v).inMem = s.inMem := rfl
@[simp] theorem State.holdTypeCode_payMem (v : Word) : (s.holdTypeCode v).payMem = s.payMem := rfl
@[simp] theorem State.holdTypeCode_out (v : Word) : (s.holdTypeCode v).out = s.out := rfl
@[simp] theorem State.holdTypeCode_pending (v : Word) : (s.holdTypeCode v).pending = s.pending := rfl
@[simp] theorem State.holdTypeCode_answers (v : Word) : (s.holdTypeCode v).answers = s.answers := rfl

/-! `State.advance` -/

@[simp] theorem State.advance_err (n : Nat) : (s.advance n).err = s.err := rfl
@[simp] theorem State.advance_cause (n : Nat) : (s.advance n).cause = s.cause := rfl
@[simp] theorem State.advance_held (n : Nat) : (s.advance n).held = s.held := rfl
@[simp] theorem State.advance_tok (n : Nat) : (s.advance n).tok = s.tok := rfl
@[simp] theorem State.advance_csrc (n : Nat) : (s.advance n).csrc = s.csrc := rfl
@[simp] theorem State.advance_crcok (n : Nat) : (s.advance n).crcok = s.crcok := rfl
@[simp] theorem State.advance_strict (n : Nat) : (s.advance n).strict = s.strict := rfl
@[simp] theorem State.advance_tin (n : Nat) : (s.advance n).tin = s.tin := rfl
@[simp] theorem State.advance_typ (n : Nat) : (s.advance n).typ = s.typ := rfl
@[simp] theorem State.advance_len (n : Nat) : (s.advance n).len = s.len := rfl
@[simp] theorem State.advance_crc (n : Nat) : (s.advance n).crc = s.crc := rfl
@[simp] theorem State.advance_ccrc (n : Nat) : (s.advance n).ccrc = s.ccrc := rfl
@[simp] theorem State.advance_acc (n : Nat) : (s.advance n).acc = s.acc := rfl
@[simp] theorem State.advance_rp (n : Nat) : (s.advance n).rp = s.rp + BitVec.ofNat 32 n := rfl
@[simp] theorem State.advance_inLen (n : Nat) : (s.advance n).inLen = s.inLen := rfl
@[simp] theorem State.advance_payLen (n : Nat) : (s.advance n).payLen = s.payLen := rfl
@[simp] theorem State.advance_epos (n : Nat) : (s.advance n).epos = s.epos := rfl
@[simp] theorem State.advance_inMem (n : Nat) : (s.advance n).inMem = s.inMem := rfl
@[simp] theorem State.advance_payMem (n : Nat) : (s.advance n).payMem = s.payMem := rfl
@[simp] theorem State.advance_out (n : Nat) : (s.advance n).out = s.out := rfl
@[simp] theorem State.advance_pending (n : Nat) : (s.advance n).pending = s.pending := rfl
@[simp] theorem State.advance_answers (n : Nat) : (s.advance n).answers = s.answers := rfl

/-! `State.emit` -/

@[simp] theorem State.emit_err (b : List Byte) : (s.emit b).err = s.err := rfl
@[simp] theorem State.emit_cause (b : List Byte) : (s.emit b).cause = s.cause := rfl
@[simp] theorem State.emit_held (b : List Byte) : (s.emit b).held = s.held := rfl
@[simp] theorem State.emit_tok (b : List Byte) : (s.emit b).tok = s.tok := rfl
@[simp] theorem State.emit_csrc (b : List Byte) : (s.emit b).csrc = s.csrc := rfl
@[simp] theorem State.emit_crcok (b : List Byte) : (s.emit b).crcok = s.crcok := rfl
@[simp] theorem State.emit_strict (b : List Byte) : (s.emit b).strict = s.strict := rfl
@[simp] theorem State.emit_tin (b : List Byte) : (s.emit b).tin = s.tin := rfl
@[simp] theorem State.emit_typ (b : List Byte) : (s.emit b).typ = s.typ := rfl
@[simp] theorem State.emit_len (b : List Byte) : (s.emit b).len = s.len := rfl
@[simp] theorem State.emit_crc (b : List Byte) : (s.emit b).crc = s.crc := rfl
@[simp] theorem State.emit_ccrc (b : List Byte) : (s.emit b).ccrc = s.ccrc := rfl
@[simp] theorem State.emit_acc (b : List Byte) : (s.emit b).acc = s.acc := rfl
@[simp] theorem State.emit_rp (b : List Byte) : (s.emit b).rp = s.rp := rfl
@[simp] theorem State.emit_inLen (b : List Byte) : (s.emit b).inLen = s.inLen := rfl
@[simp] theorem State.emit_payLen (b : List Byte) : (s.emit b).payLen = s.payLen := rfl
@[simp] theorem State.emit_epos (b : List Byte) : (s.emit b).epos = s.epos := rfl
@[simp] theorem State.emit_inMem (b : List Byte) : (s.emit b).inMem = s.inMem := rfl
@[simp] theorem State.emit_payMem (b : List Byte) : (s.emit b).payMem = s.payMem := rfl
@[simp] theorem State.emit_out (b : List Byte) : (s.emit b).out = s.out ++ b := rfl
@[simp] theorem State.emit_pending (b : List Byte) : (s.emit b).pending = s.pending := rfl
@[simp] theorem State.emit_answers (b : List Byte) : (s.emit b).answers = s.answers := rfl

/-! `State.storePayload` -/

@[simp] theorem State.storePayload_err (b : List Byte) : (s.storePayload b).err = s.err := rfl
@[simp] theorem State.storePayload_cause (b : List Byte) : (s.storePayload b).cause = s.cause := rfl
@[simp] theorem State.storePayload_held (b : List Byte) : (s.storePayload b).held = s.held := rfl
@[simp] theorem State.storePayload_tok (b : List Byte) : (s.storePayload b).tok = s.tok := rfl
@[simp] theorem State.storePayload_csrc (b : List Byte) : (s.storePayload b).csrc = s.csrc := rfl
@[simp] theorem State.storePayload_crcok (b : List Byte) : (s.storePayload b).crcok = s.crcok := rfl
@[simp] theorem State.storePayload_strict (b : List Byte) : (s.storePayload b).strict = s.strict := rfl
@[simp] theorem State.storePayload_tin (b : List Byte) : (s.storePayload b).tin = s.tin := rfl
@[simp] theorem State.storePayload_typ (b : List Byte) : (s.storePayload b).typ = s.typ := rfl
@[simp] theorem State.storePayload_len (b : List Byte) : (s.storePayload b).len = s.len := rfl
@[simp] theorem State.storePayload_crc (b : List Byte) : (s.storePayload b).crc = s.crc := rfl
@[simp] theorem State.storePayload_ccrc (b : List Byte) : (s.storePayload b).ccrc = s.ccrc := rfl
@[simp] theorem State.storePayload_acc (b : List Byte) : (s.storePayload b).acc = s.acc := rfl
@[simp] theorem State.storePayload_rp (b : List Byte) : (s.storePayload b).rp = s.rp := rfl
@[simp] theorem State.storePayload_inLen (b : List Byte) : (s.storePayload b).inLen = s.inLen := rfl
@[simp] theorem State.storePayload_payLen (b : List Byte) : (s.storePayload b).payLen = BitVec.ofNat 32 b.length := rfl
@[simp] theorem State.storePayload_epos (b : List Byte) : (s.storePayload b).epos = s.epos := rfl
@[simp] theorem State.storePayload_inMem (b : List Byte) : (s.storePayload b).inMem = s.inMem := rfl
@[simp] theorem State.storePayload_payMem (b : List Byte) : (s.storePayload b).payMem = s.payMem.writeBytes 0 b := rfl
@[simp] theorem State.storePayload_out (b : List Byte) : (s.storePayload b).out = s.out := rfl
@[simp] theorem State.storePayload_pending (b : List Byte) : (s.storePayload b).pending = s.pending := rfl
@[simp] theorem State.storePayload_answers (b : List Byte) : (s.storePayload b).answers = s.answers := rfl

/-! `State.storeInput` -/

@[simp] theorem State.storeInput_err (b : List Byte) : (s.storeInput b).err = s.err := rfl
@[simp] theorem State.storeInput_cause (b : List Byte) : (s.storeInput b).cause = s.cause := rfl
@[simp] theorem State.storeInput_held (b : List Byte) : (s.storeInput b).held = s.held := rfl
@[simp] theorem State.storeInput_tok (b : List Byte) : (s.storeInput b).tok = s.tok := rfl
@[simp] theorem State.storeInput_csrc (b : List Byte) : (s.storeInput b).csrc = s.csrc := rfl
@[simp] theorem State.storeInput_crcok (b : List Byte) : (s.storeInput b).crcok = s.crcok := rfl
@[simp] theorem State.storeInput_strict (b : List Byte) : (s.storeInput b).strict = s.strict := rfl
@[simp] theorem State.storeInput_tin (b : List Byte) : (s.storeInput b).tin = s.tin := rfl
@[simp] theorem State.storeInput_typ (b : List Byte) : (s.storeInput b).typ = s.typ := rfl
@[simp] theorem State.storeInput_len (b : List Byte) : (s.storeInput b).len = s.len := rfl
@[simp] theorem State.storeInput_crc (b : List Byte) : (s.storeInput b).crc = s.crc := rfl
@[simp] theorem State.storeInput_ccrc (b : List Byte) : (s.storeInput b).ccrc = s.ccrc := rfl
@[simp] theorem State.storeInput_acc (b : List Byte) : (s.storeInput b).acc = s.acc := rfl
@[simp] theorem State.storeInput_rp (b : List Byte) : (s.storeInput b).rp = 0#32 := rfl
@[simp] theorem State.storeInput_inLen (b : List Byte) : (s.storeInput b).inLen = BitVec.ofNat 32 b.length := rfl
@[simp] theorem State.storeInput_payLen (b : List Byte) : (s.storeInput b).payLen = s.payLen := rfl
@[simp] theorem State.storeInput_epos (b : List Byte) : (s.storeInput b).epos = s.epos := rfl
@[simp] theorem State.storeInput_inMem (b : List Byte) : (s.storeInput b).inMem = s.inMem.writeBytes 0 b := rfl
@[simp] theorem State.storeInput_payMem (b : List Byte) : (s.storeInput b).payMem = s.payMem := rfl
@[simp] theorem State.storeInput_out (b : List Byte) : (s.storeInput b).out = s.out := rfl
@[simp] theorem State.storeInput_pending (b : List Byte) : (s.storeInput b).pending = s.pending := rfl
@[simp] theorem State.storeInput_answers (b : List Byte) : (s.storeInput b).answers = s.answers := rfl

/-! `State.runCrc` -/

@[simp] theorem State.runCrc_err (a : Word) : (s.runCrc a).err = s.err := rfl
@[simp] theorem State.runCrc_cause (a : Word) : (s.runCrc a).cause = s.cause := rfl
@[simp] theorem State.runCrc_held (a : Word) : (s.runCrc a).held = s.held := rfl
@[simp] theorem State.runCrc_tok (a : Word) : (s.runCrc a).tok = s.tok := rfl
@[simp] theorem State.runCrc_csrc (a : Word) : (s.runCrc a).csrc = s.csrc := rfl
@[simp] theorem State.runCrc_crcok (a : Word) : (s.runCrc a).crcok = s.crcok := rfl
@[simp] theorem State.runCrc_strict (a : Word) : (s.runCrc a).strict = s.strict := rfl
@[simp] theorem State.runCrc_tin (a : Word) : (s.runCrc a).tin = s.tin := rfl
@[simp] theorem State.runCrc_typ (a : Word) : (s.runCrc a).typ = s.typ := rfl
@[simp] theorem State.runCrc_len (a : Word) : (s.runCrc a).len = s.len := rfl
@[simp] theorem State.runCrc_crc (a : Word) : (s.runCrc a).crc = s.crc := rfl
@[simp] theorem State.runCrc_ccrc (a : Word) : (s.runCrc a).ccrc = a ^^^ Config.crcXorOut := rfl
@[simp] theorem State.runCrc_acc (a : Word) : (s.runCrc a).acc = a := rfl
@[simp] theorem State.runCrc_rp (a : Word) : (s.runCrc a).rp = s.rp := rfl
@[simp] theorem State.runCrc_inLen (a : Word) : (s.runCrc a).inLen = s.inLen := rfl
@[simp] theorem State.runCrc_payLen (a : Word) : (s.runCrc a).payLen = s.payLen := rfl
@[simp] theorem State.runCrc_epos (a : Word) : (s.runCrc a).epos = s.epos := rfl
@[simp] theorem State.runCrc_inMem (a : Word) : (s.runCrc a).inMem = s.inMem := rfl
@[simp] theorem State.runCrc_payMem (a : Word) : (s.runCrc a).payMem = s.payMem := rfl
@[simp] theorem State.runCrc_out (a : Word) : (s.runCrc a).out = s.out := rfl
@[simp] theorem State.runCrc_pending (a : Word) : (s.runCrc a).pending = s.pending := rfl
@[simp] theorem State.runCrc_answers (a : Word) : (s.runCrc a).answers = s.answers := rfl

/-! `State.holdRecord` -/

@[simp] theorem State.holdRecord_err (l c : Word) (src ok : Bool) : (s.holdRecord l c src ok).err = s.err := rfl
@[simp] theorem State.holdRecord_cause (l c : Word) (src ok : Bool) : (s.holdRecord l c src ok).cause = s.cause := rfl
@[simp] theorem State.holdRecord_held (l c : Word) (src ok : Bool) : (s.holdRecord l c src ok).held = true := rfl
@[simp] theorem State.holdRecord_tok (l c : Word) (src ok : Bool) : (s.holdRecord l c src ok).tok = s.tok := rfl
@[simp] theorem State.holdRecord_csrc (l c : Word) (src ok : Bool) : (s.holdRecord l c src ok).csrc = src := rfl
@[simp] theorem State.holdRecord_crcok (l c : Word) (src ok : Bool) : (s.holdRecord l c src ok).crcok = ok := rfl
@[simp] theorem State.holdRecord_strict (l c : Word) (src ok : Bool) : (s.holdRecord l c src ok).strict = s.strict := rfl
@[simp] theorem State.holdRecord_tin (l c : Word) (src ok : Bool) : (s.holdRecord l c src ok).tin = s.tin := rfl
@[simp] theorem State.holdRecord_typ (l c : Word) (src ok : Bool) : (s.holdRecord l c src ok).typ = s.typ := rfl
@[simp] theorem State.holdRecord_len (l c : Word) (src ok : Bool) : (s.holdRecord l c src ok).len = l := rfl
@[simp] theorem State.holdRecord_crc (l c : Word) (src ok : Bool) : (s.holdRecord l c src ok).crc = c := rfl
@[simp] theorem State.holdRecord_ccrc (l c : Word) (src ok : Bool) : (s.holdRecord l c src ok).ccrc = s.ccrc := rfl
@[simp] theorem State.holdRecord_acc (l c : Word) (src ok : Bool) : (s.holdRecord l c src ok).acc = s.acc := rfl
@[simp] theorem State.holdRecord_rp (l c : Word) (src ok : Bool) : (s.holdRecord l c src ok).rp = s.rp := rfl
@[simp] theorem State.holdRecord_inLen (l c : Word) (src ok : Bool) : (s.holdRecord l c src ok).inLen = s.inLen := rfl
@[simp] theorem State.holdRecord_payLen (l c : Word) (src ok : Bool) : (s.holdRecord l c src ok).payLen = s.payLen := rfl
@[simp] theorem State.holdRecord_epos (l c : Word) (src ok : Bool) : (s.holdRecord l c src ok).epos = s.epos := rfl
@[simp] theorem State.holdRecord_inMem (l c : Word) (src ok : Bool) : (s.holdRecord l c src ok).inMem = s.inMem := rfl
@[simp] theorem State.holdRecord_payMem (l c : Word) (src ok : Bool) : (s.holdRecord l c src ok).payMem = s.payMem := rfl
@[simp] theorem State.holdRecord_out (l c : Word) (src ok : Bool) : (s.holdRecord l c src ok).out = s.out := rfl
@[simp] theorem State.holdRecord_pending (l c : Word) (src ok : Bool) : (s.holdRecord l c src ok).pending = s.pending := rfl
@[simp] theorem State.holdRecord_answers (l c : Word) (src ok : Bool) : (s.holdRecord l c src ok).answers = s.answers := rfl

/-! `State.resetRegisters` -/

@[simp] theorem State.resetRegisters_err : (s.resetRegisters).err = State.reset.err := rfl
@[simp] theorem State.resetRegisters_cause : (s.resetRegisters).cause = State.reset.cause := rfl
@[simp] theorem State.resetRegisters_held : (s.resetRegisters).held = State.reset.held := rfl
@[simp] theorem State.resetRegisters_tok : (s.resetRegisters).tok = State.reset.tok := rfl
@[simp] theorem State.resetRegisters_csrc : (s.resetRegisters).csrc = State.reset.csrc := rfl
@[simp] theorem State.resetRegisters_crcok : (s.resetRegisters).crcok = State.reset.crcok := rfl
@[simp] theorem State.resetRegisters_strict : (s.resetRegisters).strict = State.reset.strict := rfl
@[simp] theorem State.resetRegisters_tin : (s.resetRegisters).tin = State.reset.tin := rfl
@[simp] theorem State.resetRegisters_typ : (s.resetRegisters).typ = State.reset.typ := rfl
@[simp] theorem State.resetRegisters_len : (s.resetRegisters).len = State.reset.len := rfl
@[simp] theorem State.resetRegisters_crc : (s.resetRegisters).crc = State.reset.crc := rfl
@[simp] theorem State.resetRegisters_ccrc : (s.resetRegisters).ccrc = State.reset.ccrc := rfl
@[simp] theorem State.resetRegisters_acc : (s.resetRegisters).acc = State.reset.acc := rfl
@[simp] theorem State.resetRegisters_rp : (s.resetRegisters).rp = State.reset.rp := rfl
@[simp] theorem State.resetRegisters_inLen : (s.resetRegisters).inLen = State.reset.inLen := rfl
@[simp] theorem State.resetRegisters_payLen : (s.resetRegisters).payLen = State.reset.payLen := rfl
@[simp] theorem State.resetRegisters_epos : (s.resetRegisters).epos = State.reset.epos := rfl
@[simp] theorem State.resetRegisters_inMem : (s.resetRegisters).inMem = s.inMem := rfl
@[simp] theorem State.resetRegisters_payMem : (s.resetRegisters).payMem = s.payMem := rfl
@[simp] theorem State.resetRegisters_out : (s.resetRegisters).out = s.out := rfl
@[simp] theorem State.resetRegisters_pending : (s.resetRegisters).pending = s.pending := rfl
@[simp] theorem State.resetRegisters_answers : (s.resetRegisters).answers = s.answers := rfl

/-! `State.clearOut` -/

@[simp] theorem State.clearOut_err : (s.clearOut).err = s.err := rfl
@[simp] theorem State.clearOut_cause : (s.clearOut).cause = s.cause := rfl
@[simp] theorem State.clearOut_held : (s.clearOut).held = s.held := rfl
@[simp] theorem State.clearOut_tok : (s.clearOut).tok = s.tok := rfl
@[simp] theorem State.clearOut_csrc : (s.clearOut).csrc = s.csrc := rfl
@[simp] theorem State.clearOut_crcok : (s.clearOut).crcok = s.crcok := rfl
@[simp] theorem State.clearOut_strict : (s.clearOut).strict = s.strict := rfl
@[simp] theorem State.clearOut_tin : (s.clearOut).tin = s.tin := rfl
@[simp] theorem State.clearOut_typ : (s.clearOut).typ = s.typ := rfl
@[simp] theorem State.clearOut_len : (s.clearOut).len = s.len := rfl
@[simp] theorem State.clearOut_crc : (s.clearOut).crc = s.crc := rfl
@[simp] theorem State.clearOut_ccrc : (s.clearOut).ccrc = s.ccrc := rfl
@[simp] theorem State.clearOut_acc : (s.clearOut).acc = s.acc := rfl
@[simp] theorem State.clearOut_rp : (s.clearOut).rp = s.rp := rfl
@[simp] theorem State.clearOut_inLen : (s.clearOut).inLen = s.inLen := rfl
@[simp] theorem State.clearOut_payLen : (s.clearOut).payLen = s.payLen := rfl
@[simp] theorem State.clearOut_epos : (s.clearOut).epos = s.epos := rfl
@[simp] theorem State.clearOut_inMem : (s.clearOut).inMem = s.inMem := rfl
@[simp] theorem State.clearOut_payMem : (s.clearOut).payMem = s.payMem := rfl
@[simp] theorem State.clearOut_out : (s.clearOut).out = [] := rfl
@[simp] theorem State.clearOut_pending : (s.clearOut).pending = s.pending := rfl
@[simp] theorem State.clearOut_answers : (s.clearOut).answers = s.answers := rfl

/-! `State.dropOut` -/

@[simp] theorem State.dropOut_err (k : Nat) : (s.dropOut k).err = s.err := rfl
@[simp] theorem State.dropOut_cause (k : Nat) : (s.dropOut k).cause = s.cause := rfl
@[simp] theorem State.dropOut_held (k : Nat) : (s.dropOut k).held = s.held := rfl
@[simp] theorem State.dropOut_tok (k : Nat) : (s.dropOut k).tok = s.tok := rfl
@[simp] theorem State.dropOut_csrc (k : Nat) : (s.dropOut k).csrc = s.csrc := rfl
@[simp] theorem State.dropOut_crcok (k : Nat) : (s.dropOut k).crcok = s.crcok := rfl
@[simp] theorem State.dropOut_strict (k : Nat) : (s.dropOut k).strict = s.strict := rfl
@[simp] theorem State.dropOut_tin (k : Nat) : (s.dropOut k).tin = s.tin := rfl
@[simp] theorem State.dropOut_typ (k : Nat) : (s.dropOut k).typ = s.typ := rfl
@[simp] theorem State.dropOut_len (k : Nat) : (s.dropOut k).len = s.len := rfl
@[simp] theorem State.dropOut_crc (k : Nat) : (s.dropOut k).crc = s.crc := rfl
@[simp] theorem State.dropOut_ccrc (k : Nat) : (s.dropOut k).ccrc = s.ccrc := rfl
@[simp] theorem State.dropOut_acc (k : Nat) : (s.dropOut k).acc = s.acc := rfl
@[simp] theorem State.dropOut_rp (k : Nat) : (s.dropOut k).rp = s.rp := rfl
@[simp] theorem State.dropOut_inLen (k : Nat) : (s.dropOut k).inLen = s.inLen := rfl
@[simp] theorem State.dropOut_payLen (k : Nat) : (s.dropOut k).payLen = s.payLen := rfl
@[simp] theorem State.dropOut_epos (k : Nat) : (s.dropOut k).epos = s.epos := rfl
@[simp] theorem State.dropOut_inMem (k : Nat) : (s.dropOut k).inMem = s.inMem := rfl
@[simp] theorem State.dropOut_payMem (k : Nat) : (s.dropOut k).payMem = s.payMem := rfl
@[simp] theorem State.dropOut_out (k : Nat) : (s.dropOut k).out = s.out.drop k := rfl
@[simp] theorem State.dropOut_pending (k : Nat) : (s.dropOut k).pending = s.pending := rfl
@[simp] theorem State.dropOut_answers (k : Nat) : (s.dropOut k).answers = s.answers := rfl

/-! `State.setStrict` -/

@[simp] theorem State.setStrict_err (b : Bool) : (s.setStrict b).err = s.err := rfl
@[simp] theorem State.setStrict_cause (b : Bool) : (s.setStrict b).cause = s.cause := rfl
@[simp] theorem State.setStrict_held (b : Bool) : (s.setStrict b).held = s.held := rfl
@[simp] theorem State.setStrict_tok (b : Bool) : (s.setStrict b).tok = s.tok := rfl
@[simp] theorem State.setStrict_csrc (b : Bool) : (s.setStrict b).csrc = s.csrc := rfl
@[simp] theorem State.setStrict_crcok (b : Bool) : (s.setStrict b).crcok = s.crcok := rfl
@[simp] theorem State.setStrict_strict (b : Bool) : (s.setStrict b).strict = b := rfl
@[simp] theorem State.setStrict_tin (b : Bool) : (s.setStrict b).tin = s.tin := rfl
@[simp] theorem State.setStrict_typ (b : Bool) : (s.setStrict b).typ = s.typ := rfl
@[simp] theorem State.setStrict_len (b : Bool) : (s.setStrict b).len = s.len := rfl
@[simp] theorem State.setStrict_crc (b : Bool) : (s.setStrict b).crc = s.crc := rfl
@[simp] theorem State.setStrict_ccrc (b : Bool) : (s.setStrict b).ccrc = s.ccrc := rfl
@[simp] theorem State.setStrict_acc (b : Bool) : (s.setStrict b).acc = s.acc := rfl
@[simp] theorem State.setStrict_rp (b : Bool) : (s.setStrict b).rp = s.rp := rfl
@[simp] theorem State.setStrict_inLen (b : Bool) : (s.setStrict b).inLen = s.inLen := rfl
@[simp] theorem State.setStrict_payLen (b : Bool) : (s.setStrict b).payLen = s.payLen := rfl
@[simp] theorem State.setStrict_epos (b : Bool) : (s.setStrict b).epos = s.epos := rfl
@[simp] theorem State.setStrict_inMem (b : Bool) : (s.setStrict b).inMem = s.inMem := rfl
@[simp] theorem State.setStrict_payMem (b : Bool) : (s.setStrict b).payMem = s.payMem := rfl
@[simp] theorem State.setStrict_out (b : Bool) : (s.setStrict b).out = s.out := rfl
@[simp] theorem State.setStrict_pending (b : Bool) : (s.setStrict b).pending = s.pending := rfl
@[simp] theorem State.setStrict_answers (b : Bool) : (s.setStrict b).answers = s.answers := rfl

/-! `State.setTin` -/

@[simp] theorem State.setTin_err (v : Word) : (s.setTin v).err = s.err := rfl
@[simp] theorem State.setTin_cause (v : Word) : (s.setTin v).cause = s.cause := rfl
@[simp] theorem State.setTin_held (v : Word) : (s.setTin v).held = s.held := rfl
@[simp] theorem State.setTin_tok (v : Word) : (s.setTin v).tok = s.tok := rfl
@[simp] theorem State.setTin_csrc (v : Word) : (s.setTin v).csrc = s.csrc := rfl
@[simp] theorem State.setTin_crcok (v : Word) : (s.setTin v).crcok = s.crcok := rfl
@[simp] theorem State.setTin_strict (v : Word) : (s.setTin v).strict = s.strict := rfl
@[simp] theorem State.setTin_tin (v : Word) : (s.setTin v).tin = v := rfl
@[simp] theorem State.setTin_typ (v : Word) : (s.setTin v).typ = s.typ := rfl
@[simp] theorem State.setTin_len (v : Word) : (s.setTin v).len = s.len := rfl
@[simp] theorem State.setTin_crc (v : Word) : (s.setTin v).crc = s.crc := rfl
@[simp] theorem State.setTin_ccrc (v : Word) : (s.setTin v).ccrc = s.ccrc := rfl
@[simp] theorem State.setTin_acc (v : Word) : (s.setTin v).acc = s.acc := rfl
@[simp] theorem State.setTin_rp (v : Word) : (s.setTin v).rp = s.rp := rfl
@[simp] theorem State.setTin_inLen (v : Word) : (s.setTin v).inLen = s.inLen := rfl
@[simp] theorem State.setTin_payLen (v : Word) : (s.setTin v).payLen = s.payLen := rfl
@[simp] theorem State.setTin_epos (v : Word) : (s.setTin v).epos = s.epos := rfl
@[simp] theorem State.setTin_inMem (v : Word) : (s.setTin v).inMem = s.inMem := rfl
@[simp] theorem State.setTin_payMem (v : Word) : (s.setTin v).payMem = s.payMem := rfl
@[simp] theorem State.setTin_out (v : Word) : (s.setTin v).out = s.out := rfl
@[simp] theorem State.setTin_pending (v : Word) : (s.setTin v).pending = s.pending := rfl
@[simp] theorem State.setTin_answers (v : Word) : (s.setTin v).answers = s.answers := rfl

/-! `State.answer` -/

@[simp] theorem State.answer_err (x : HostAnswer) : (s.answer x).err = s.err := rfl
@[simp] theorem State.answer_cause (x : HostAnswer) : (s.answer x).cause = s.cause := rfl
@[simp] theorem State.answer_held (x : HostAnswer) : (s.answer x).held = s.held := rfl
@[simp] theorem State.answer_tok (x : HostAnswer) : (s.answer x).tok = s.tok := rfl
@[simp] theorem State.answer_csrc (x : HostAnswer) : (s.answer x).csrc = s.csrc := rfl
@[simp] theorem State.answer_crcok (x : HostAnswer) : (s.answer x).crcok = s.crcok := rfl
@[simp] theorem State.answer_strict (x : HostAnswer) : (s.answer x).strict = s.strict := rfl
@[simp] theorem State.answer_tin (x : HostAnswer) : (s.answer x).tin = s.tin := rfl
@[simp] theorem State.answer_typ (x : HostAnswer) : (s.answer x).typ = s.typ := rfl
@[simp] theorem State.answer_len (x : HostAnswer) : (s.answer x).len = s.len := rfl
@[simp] theorem State.answer_crc (x : HostAnswer) : (s.answer x).crc = s.crc := rfl
@[simp] theorem State.answer_ccrc (x : HostAnswer) : (s.answer x).ccrc = s.ccrc := rfl
@[simp] theorem State.answer_acc (x : HostAnswer) : (s.answer x).acc = s.acc := rfl
@[simp] theorem State.answer_rp (x : HostAnswer) : (s.answer x).rp = s.rp := rfl
@[simp] theorem State.answer_inLen (x : HostAnswer) : (s.answer x).inLen = s.inLen := rfl
@[simp] theorem State.answer_payLen (x : HostAnswer) : (s.answer x).payLen = s.payLen := rfl
@[simp] theorem State.answer_epos (x : HostAnswer) : (s.answer x).epos = s.epos := rfl
@[simp] theorem State.answer_inMem (x : HostAnswer) : (s.answer x).inMem = s.inMem := rfl
@[simp] theorem State.answer_payMem (x : HostAnswer) : (s.answer x).payMem = s.payMem := rfl
@[simp] theorem State.answer_out (x : HostAnswer) : (s.answer x).out = s.out := rfl
@[simp] theorem State.answer_pending (x : HostAnswer) : (s.answer x).pending = s.pending := rfl
@[simp] theorem State.answer_answers (x : HostAnswer) : (s.answer x).answers = s.answers ++ [x] := rfl

/-! `State.setPending` -/

@[simp] theorem State.setPending_err (p : List HostAction) : (s.setPending p).err = s.err := rfl
@[simp] theorem State.setPending_cause (p : List HostAction) : (s.setPending p).cause = s.cause := rfl
@[simp] theorem State.setPending_held (p : List HostAction) : (s.setPending p).held = s.held := rfl
@[simp] theorem State.setPending_tok (p : List HostAction) : (s.setPending p).tok = s.tok := rfl
@[simp] theorem State.setPending_csrc (p : List HostAction) : (s.setPending p).csrc = s.csrc := rfl
@[simp] theorem State.setPending_crcok (p : List HostAction) : (s.setPending p).crcok = s.crcok := rfl
@[simp] theorem State.setPending_strict (p : List HostAction) : (s.setPending p).strict = s.strict := rfl
@[simp] theorem State.setPending_tin (p : List HostAction) : (s.setPending p).tin = s.tin := rfl
@[simp] theorem State.setPending_typ (p : List HostAction) : (s.setPending p).typ = s.typ := rfl
@[simp] theorem State.setPending_len (p : List HostAction) : (s.setPending p).len = s.len := rfl
@[simp] theorem State.setPending_crc (p : List HostAction) : (s.setPending p).crc = s.crc := rfl
@[simp] theorem State.setPending_ccrc (p : List HostAction) : (s.setPending p).ccrc = s.ccrc := rfl
@[simp] theorem State.setPending_acc (p : List HostAction) : (s.setPending p).acc = s.acc := rfl
@[simp] theorem State.setPending_rp (p : List HostAction) : (s.setPending p).rp = s.rp := rfl
@[simp] theorem State.setPending_inLen (p : List HostAction) : (s.setPending p).inLen = s.inLen := rfl
@[simp] theorem State.setPending_payLen (p : List HostAction) : (s.setPending p).payLen = s.payLen := rfl
@[simp] theorem State.setPending_epos (p : List HostAction) : (s.setPending p).epos = s.epos := rfl
@[simp] theorem State.setPending_inMem (p : List HostAction) : (s.setPending p).inMem = s.inMem := rfl
@[simp] theorem State.setPending_payMem (p : List HostAction) : (s.setPending p).payMem = s.payMem := rfl
@[simp] theorem State.setPending_out (p : List HostAction) : (s.setPending p).out = s.out := rfl
@[simp] theorem State.setPending_pending (p : List HostAction) : (s.setPending p).pending = p := rfl
@[simp] theorem State.setPending_answers (p : List HostAction) : (s.setPending p).answers = s.answers := rfl

end Updates

end Sys2Proof.Machine
end

