-- ==== Sys2Proof/Laws/Frames.lean ====
section
/-! SUPPORT. What the two ends of a command, failing and committing, leave unchanged, and how frames compose. -/

namespace Sys2Proof.Machine

/-- Bits 8 and above of `STATUS` do not depend on the error report. -/
theorem State.status_getLsbD_of_report (s t : State) (hh : t.held = s.held) (hk : t.tok = s.tok) (hs : t.csrc = s.csrc)
    (ho : t.crcok = s.crcok) (ht : t.typ = s.typ) (k : Nat) (h : 8 ≤ k) : t.status.getLsbD k = s.status.getLsbD k := by
  simp only [State.status, BitVec.getLsbD_append, hh, hk, hs, ho, ht]
  simp [show ¬ k < 4 by omega, show ¬ k - 4 < 4 by omega]

theorem not_mem_reportBits {k : Nat} (h : k ∉ reportBits) : 8 ≤ k := by
  simp only [reportBits, List.mem_cons, List.not_mem_nil, or_false, not_or] at h
  omega

/-- Failing, precisely (R214). -/
theorem State.fail_frame (s : State) (f : Failure) : Frame [12] reportBits s (s.fail f) where
  regs := by
    intro n hn
    simp only [List.mem_cons, List.not_mem_nil, or_false, not_or] at hn
    unfold State.readReg
    split <;> first | rfl | omega
  status := fun k hk => State.status_getLsbD_of_report s (s.fail f) rfl rfl rfl rfl rfl k (not_mem_reportBits hk)
  inBytes := fun _ => rfl
  payBytes := fun _ => rfl
  out := rfl
  host := ⟨rfl, rfl⟩

/-- A failure is a report and nothing else. -/
theorem reportsOnly_fail (s : State) (f : Failure) : ReportsOnly f (.next (s.fail f)) s :=
  ⟨_, rfl, rfl, rfl, rfl, s.fail_frame f⟩

/-- Committing (R200). -/
theorem State.commit_frame (s : State) : Frame [] reportBits s s.commit where
  regs := by
    intro n hn
    simp only [List.mem_cons, List.not_mem_nil, or_false] at hn
    unfold State.readReg
    split <;> first | rfl | omega
  status := fun k hk => State.status_getLsbD_of_report s s.commit rfl rfl rfl rfl rfl k (not_mem_reportBits hk)
  inBytes := fun _ => rfl
  payBytes := fun _ => rfl
  out := rfl
  host := ⟨rfl, rfl⟩

theorem State.commit_cleared (s : State) : Cleared s.commit := ⟨rfl, rfl⟩

/-- What two steps leave unchanged, each in its own frame, the two together do. -/
theorem Frame.trans {w b : List Nat} {s t u : State} (h : Frame w b s t) (h' : Frame w b t u) : Frame w b s u where
  regs := fun n hn => (h'.regs n hn).trans (h.regs n hn)
  status := fun k hk => (h'.status k hk).trans (h.status k hk)
  inBytes := fun a => (h'.inBytes a).trans (h.inBytes a)
  payBytes := fun a => (h'.payBytes a).trans (h.payBytes a)
  out := h'.out.trans h.out
  host := ⟨h'.host.1.trans h.host.1, h'.host.2.trans h.host.2⟩

/-- A frame holds with more registers and bits excepted. -/
theorem Frame.mono {w b w' b' : List Nat} {s t : State} (h : Frame w b s t) (hw : ∀ n ∈ w, n ∈ w')
    (hb : ∀ k ∈ b, k ∈ b') : Frame w' b' s t where
  regs := fun n hn => h.regs n (fun hm => hn (by
    rcases List.mem_cons.mp hm with rfl | hm
    · simp
    · exact List.mem_cons_of_mem _ (hw n hm)))
  status := fun k hk => h.status k (fun hm => hk (hb k hm))
  inBytes := h.inBytes
  payBytes := h.payBytes
  out := h.out
  host := h.host

end Sys2Proof.Machine
end

