-- ==== Sys2Proof/Laws/Memory.lean ====
section
/-! SUPPORT. What can be said of byte storage once and for all: reading after writing, the canonical form, slices. -/

namespace Sys2Proof.Machine

/-- Nothing is listed at an offset below all the listed ones. -/
theorem Memory.read_eq_blank_of_lt (m : Memory) (a : Nat) (h : ∀ c ∈ m, a < c.1) :
    m.read a = Memory.blank := by
  induction m with
  | nil => rfl
  | cons c r ih =>
    obtain ⟨k, v⟩ := c
    have hk : a < k := h (k, v) (by simp)
    have hr : ∀ d ∈ r, a < d.1 := fun d hd => h d (by simp [hd])
    simp [Memory.read, Nat.ne_of_gt hk, ih hr]

/-- The tail of a canonical storage is canonical. -/
theorem Memory.wf_tail {c : Host.Cell} {r : Memory} (h : Memory.wf (c :: r)) : Memory.wf r :=
  ⟨(List.pairwise_cons.mp h.1).2, fun d hd => h.2 d (by simp [hd])⟩

/-- Read after write: the written byte at its offset, every other byte as before. -/
theorem Memory.read_write (m : Memory) (a x : Nat) (b : Byte) (h : Memory.wf m) :
    (m.write a b).read x = if x = a then b else m.read x := by
  induction m with
  | nil =>
    by_cases hb : b = Memory.blank
    · simp [Memory.write, Memory.read, hb]
    · by_cases hx : x = a
      · simp [Memory.write, Memory.read, hb, hx]
      · simp [Memory.write, Memory.read, hb, hx, Ne.symm hx]
  | cons c r ih =>
    obtain ⟨k, v⟩ := c
    have hk : ∀ d ∈ r, k < d.1 := (List.pairwise_cons.mp h.1).1
    have ih := ih (Memory.wf_tail h)
    unfold Memory.write
    split
    · rename_i hak
      have hr : ∀ d ∈ (k, v) :: r, a < d.1 := by
        intro d hd
        rcases List.mem_cons.mp hd with rfl | hd
        · exact hak
        · exact Nat.lt_trans hak (hk d hd)
      split
      · rename_i hb
        by_cases hx : x = a
        · rw [hx, Memory.read_eq_blank_of_lt _ _ hr]; simp [hb]
        · simp [hx]
      · by_cases hx : x = a
        · simp [Memory.read, hx]
        · simp [Memory.read, hx, Ne.symm hx]
    · split
      · rename_i hne hak
        subst hak
        split
        · rename_i hb
          by_cases hx : x = a
          · rw [hx, Memory.read_eq_blank_of_lt _ _ hk]; simp [hb]
          · simp [Memory.read, hx, Ne.symm hx]
        · by_cases hx : x = a
          · simp [Memory.read, hx]
          · simp [Memory.read, hx, Ne.symm hx]
      · rename_i hlt hne
        by_cases hxk : k = x
        · have : x ≠ a := by omega
          simp [Memory.read, hxk, this]
        · simp [Memory.read, hxk, ih]

/-- A write lists nothing but its own offset and what was listed. -/
theorem Memory.mem_write {m : Memory} {a : Nat} {b : Byte} {c : Host.Cell} (h : c ∈ m.write a b) :
    c ∈ m ∨ (c = (a, b) ∧ b ≠ Memory.blank) := by
  induction m with
  | nil =>
    by_cases hb : b = Memory.blank
    · simp [Memory.write, hb] at h
    · simp [Memory.write, hb] at h; exact .inr ⟨h, hb⟩
  | cons d r ih =>
    obtain ⟨k, v⟩ := d
    unfold Memory.write at h
    split at h
    · split at h
      · exact .inl h
      · rcases List.mem_cons.mp h with h | h
        · exact .inr ⟨h, ‹_›⟩
        · exact .inl h
    · split at h
      · split at h
        · exact .inl (by simp [h])
        · rcases List.mem_cons.mp h with h | h
          · exact .inr ⟨h, ‹_›⟩
          · exact .inl (by simp [h])
      · rcases List.mem_cons.mp h with h | h
        · exact .inl (by simp [h])
        · rcases ih h with h | h
          · exact .inl (by simp [h])
          · exact .inr h

/-- A write keeps the canonical form. -/
theorem Memory.write_wf (m : Memory) (a : Nat) (b : Byte) (h : Memory.wf m) : Memory.wf (m.write a b) := by
  refine ⟨?_, fun c hc => ?_⟩
  · induction m with
    | nil => by_cases hb : b = Memory.blank <;> simp [Memory.write, hb]
    | cons d r ih =>
      obtain ⟨k, v⟩ := d
      have hk := (List.pairwise_cons.mp h.1).1
      have hr := (List.pairwise_cons.mp h.1).2
      unfold Memory.write
      split
      · rename_i hak
        split
        · exact h.1
        · refine List.pairwise_cons.mpr ⟨fun d hd => ?_, h.1⟩
          rcases List.mem_cons.mp hd with rfl | hd
          · exact hak
          · exact Nat.lt_trans hak (hk d hd)
      · split
        · rename_i hak
          split
          · exact hr
          · exact List.pairwise_cons.mpr ⟨fun d hd => hak ▸ hk d hd, hr⟩
        · refine List.pairwise_cons.mpr ⟨fun d hd => ?_, ih (Memory.wf_tail h)⟩
          rcases Memory.mem_write hd with hd | ⟨rfl, -⟩
          · exact hk d hd
          · simp only; omega
  · rcases Memory.mem_write hc with hc | ⟨rfl, hb⟩
    · exact h.2 c hc
    · exact hb

/-- A write below the capacity stores nothing beyond it. -/
theorem Memory.write_within {m : Memory} {cap a : Nat} (b : Byte) (h : Memory.within m cap) (ha : a < cap) :
    Memory.within (m.write a b) cap := by
  intro c hc
  rcases Memory.mem_write hc with hc | ⟨rfl, -⟩
  · exact h c hc
  · exact ha

/-- Writing a byte sequence keeps the canonical form. -/
theorem Memory.writeBytes_wf (s : List Byte) (m : Memory) (a : Nat) (h : Memory.wf m) :
    Memory.wf (m.writeBytes a s) := by
  induction s generalizing m a with
  | nil => exact h
  | cons b s ih => exact ih _ _ (Memory.write_wf m a b h)

/-- A byte sequence written below the capacity stores nothing beyond it. -/
theorem Memory.writeBytes_within (s : List Byte) (m : Memory) (cap a : Nat) (h : Memory.within m cap)
    (ha : a + s.length ≤ cap) : Memory.within (m.writeBytes a s) cap := by
  induction s generalizing m a with
  | nil => exact h
  | cons b s ih =>
    simp only [List.length_cons] at ha
    exact ih _ _ (Memory.write_within b h (by omega)) (by omega)

/-- Every byte outside the written range reads as before. -/
theorem Memory.read_writeBytes_of_not_mem (s : List Byte) (m : Memory) (a x : Nat) (h : Memory.wf m)
    (hx : x < a ∨ a + s.length ≤ x) : (m.writeBytes a s).read x = m.read x := by
  induction s generalizing m a with
  | nil => rfl
  | cons b s ih =>
    simp only [List.length_cons] at hx
    rw [Memory.writeBytes, ih _ _ (Memory.write_wf m a b h) (by omega), Memory.read_write m a x b h]
    simp [show x ≠ a by omega]

/-- Every byte in the written range reads as written. -/
theorem Memory.read_writeBytes_of_mem (s : List Byte) (m : Memory) (a i : Nat) (h : Memory.wf m)
    (hi : i < s.length) : (m.writeBytes a s).read (a + i) = s[i] := by
  induction s generalizing m a i with
  | nil => simp at hi
  | cons b s ih =>
    cases i with
    | zero =>
      rw [Memory.writeBytes, Memory.read_writeBytes_of_not_mem _ _ _ _ (Memory.write_wf m a b h) (by omega),
        Memory.read_write m a _ b h]
      simp
    | succ i =>
      have := ih (m.write a b) (a + 1) i (Memory.write_wf m a b h) (by simpa using hi)
      rw [Memory.writeBytes, show a + (i + 1) = a + 1 + i by omega, this]
      simp

@[simp] theorem Memory.slice_length (m : Memory) (a n : Nat) : (m.slice a n).length = n := by
  induction n generalizing a with
  | zero => rfl
  | succ n ih => simp [Memory.slice, ih]

/-- The bytes of a slice are the bytes of the storage. -/
theorem Memory.getElem_slice (m : Memory) (a n i : Nat) (h : i < (m.slice a n).length) :
    (m.slice a n)[i] = m.read (a + i) := by
  induction n generalizing a i with
  | zero => simp at h
  | succ n ih =>
    cases i with
    | zero => simp [Memory.slice]
    | succ i =>
      simp only [Memory.slice, List.getElem_cons_succ]
      rw [ih]
      congr 1
      omega

/-- A slice depends on the bytes it covers alone. -/
theorem Memory.slice_congr {m m' : Memory} {a n : Nat} (h : ∀ x, a ≤ x → x < a + n → m.read x = m'.read x) :
    m.slice a n = m'.slice a n := by
  refine List.ext_getElem (by simp) fun i h1 h2 => ?_
  rw [Memory.getElem_slice, Memory.getElem_slice]
  rw [Memory.slice_length] at h1
  exact h _ (by omega) (by omega)

/-- The slice just written is the byte sequence written. -/
theorem Memory.slice_writeBytes (s : List Byte) (m : Memory) (a : Nat) (h : Memory.wf m) :
    (m.writeBytes a s).slice a s.length = s := by
  refine List.ext_getElem (by simp) fun i h1 h2 => ?_
  rw [Memory.getElem_slice, Memory.read_writeBytes_of_mem s m a i h h2]

/-- A part of a slice is a slice. -/
theorem Memory.field_slice (m : Memory) (a n o k : Nat) (h : o + k ≤ n) :
    field (m.slice a n) o k = m.slice (a + o) k := by
  unfold field
  refine List.ext_getElem (by simp; omega) fun i h1 h2 => ?_
  rw [List.getElem_take, List.getElem_drop, Memory.getElem_slice, Memory.getElem_slice]
  congr 1
  omega

/-- A slice cut in two. -/
theorem Memory.slice_append (m : Memory) (a n k : Nat) : m.slice a (n + k) = m.slice a n ++ m.slice (a + n) k := by
  induction n generalizing a with
  | zero => simp [Memory.slice]
  | succ n ih =>
    rw [show n + 1 + k = (n + k) + 1 by omega, Memory.slice, Memory.slice, ih]
    simp [show a + 1 + n = a + (n + 1) by omega]

end Sys2Proof.Machine
end

