-- ==== Sys2Proof/Laws/PerInstr.lean ====
section
/-! SUPPORT. Per command, as syntax: its word is that of the row of the opcode map that has its mnemonic (R80). -/

namespace Sys2Proof.Laws.TableRow

/-- The command's word matches a row of the opcode map of its own mnemonic. -/
def Statement (i : Instr) : Prop :=
  ∃ r ∈ opcodeTable, r.mnemonic = i.mnemonic ∧ encode i &&& r.mask = r.pattern

theorem nop : Statement .nop := by unfold Statement; decide
theorem sysReset : Statement .sysReset := by unfold Statement; decide
theorem crcInit : Statement .crcInit := by unfold Statement; decide
theorem crcByte (b : Byte) : Statement (.crcByte b) := by
  refine ⟨⟨"CRC.BYTE", 0x11000000#32, 0xFFFFFF00#32⟩, by decide, rfl, ?_⟩
  revert b
  decide
theorem crcTyp : Statement .crcTyp := by unfold Statement; decide
theorem crcPay : Statement .crcPay := by unfold Statement; decide
theorem crcFin : Statement .crcFin := by unfold Statement; decide
theorem crcVerify : Statement .crcVerify := by unfold Statement; decide
theorem typeStrict : Statement .typeStrict := by unfold Statement; decide
theorem typeRaw : Statement .typeRaw := by unfold Statement; decide
theorem recParse : Statement .recParse := by unfold Statement; decide
theorem recBuild : Statement .recBuild := by unfold Statement; decide
theorem recEmit : Statement .recEmit := by unfold Statement; decide
theorem sigCheck : Statement .sigCheck := by unfold Statement; decide
theorem sigEmit : Statement .sigEmit := by unfold Statement; decide

end Sys2Proof.Laws.TableRow
end

