-- ==== Sys2Proof/Laws/Record.lean ====
section
/-! SUPPORT. What a parse can find, said once: the two successful forms of R141, steps 5 and 6. -/

namespace Sys2Proof.Machine

/-- A successful parse: the header is there, the type bytes are letters, the payload is there, and either four bytes
follow it (step 5) or none (step 6). -/
theorem parseRecord_ok {strict : Bool} {inp : List Byte} {r : Parsed} (h : parseRecord strict inp = .ok r) :
    8 ≤ inp.length ∧ letters (field inp 4 4) = true ∧ r.len = be32 (field inp 0 4) ∧ r.typ = be32 (field inp 4 4) ∧
      r.len.toNat ≤ inp.length - 8 ∧ r.pay = field inp 8 r.len.toNat ∧
      r.acc = crcAcc Config.crcInit (field inp 4 4 ++ r.pay) ∧
      ((12 + r.len.toNat ≤ inp.length ∧ r.crc = be32 (field inp (8 + r.len.toNat) 4) ∧ r.csrc = true ∧
          r.used = 12 + r.len.toNat ∧ (strict = true → r.crc = r.acc ^^^ Config.crcXorOut)) ∨
       (inp.length = 8 + r.len.toNat ∧ r.crc = r.acc ^^^ Config.crcXorOut ∧ r.csrc = false ∧
          r.used = 8 + r.len.toNat)) := by
  unfold parseRecord at h
  split at h
  · cases h
  split at h
  · cases h
  dsimp only at h
  split at h
  · cases h
  split at h
  · split at h
    · cases h
    · rename_i h8 hl ht hr hs
      cases h
      refine ⟨by omega, by simpa using hl, rfl, rfl, by simpa using ht, rfl, rfl, .inl ⟨by dsimp only; omega, rfl, rfl, rfl, ?_⟩⟩
      intro hst
      simpa [hst] using hs
  · split at h
    · rename_i h8 hl ht hr hz
      cases h
      exact ⟨by omega, by simpa using hl, rfl, rfl, by simpa using ht, rfl, rfl, .inr ⟨by dsimp only; omega, rfl, rfl, rfl⟩⟩
    · cases h

/-- A record's payload has the length its length field says. -/
theorem parseRecord_pay_length {strict : Bool} {inp : List Byte} {r : Parsed} (h : parseRecord strict inp = .ok r) :
    r.pay.length = r.len.toNat := by
  obtain ⟨h8, -, -, -, hlen, hpay, -⟩ := parseRecord_ok h
  rw [hpay, field_length]
  omega

/-- A record takes at least its header, and no more than there is. -/
theorem parseRecord_used {strict : Bool} {inp : List Byte} {r : Parsed} (h : parseRecord strict inp = .ok r) :
    8 + r.len.toNat ≤ r.used ∧ r.used ≤ inp.length := by
  obtain ⟨-, -, -, -, -, -, -, h | h⟩ := parseRecord_ok h <;> omega

end Sys2Proof.Machine
end

