-- ==== Sys2Proof/Laws/Step.lean ====
section
/-! SUPPORT. The step by what the host does next, and sequencing by what comes first. -/

namespace Sys2Proof.Machine

@[simp] theorem andThen_next {α β : Type} (a : α) (f : α → Host.Outcome β Fault Refusal) :
    andThen (.next a) f = f a := rfl

/-- A sequence that completes does so through a first part that completes. -/
theorem andThen_eq_next {α β : Type} {o : Host.Outcome α Fault Refusal} {f : α → Host.Outcome β Fault Refusal} {b : β} :
    andThen o f = .next b ↔ ∃ a, o = .next a ∧ f a = .next b := by
  cases o <;> simp [andThen]

theorem stepWith_nil (c : Config) (s : State) (h : s.pending = []) : stepWith c s = .next s := by
  simp [stepWith, h]

theorem stepWith_cons (c : Config) (s : State) (a : HostAction) (r : List HostAction) (h : s.pending = a :: r) :
    stepWith c s = hostAct c a (s.setPending r) := by
  simp [stepWith, h]

end Sys2Proof.Machine
end

