-- ==== Sys2Proof/Tests/Slice0.lean ====
section
/-! SUPPORT. Tests, and for each statement with hypotheses a state that meets them. Expected values are those of
spec/95_test_vectors.md, by the vector's name, or of the rule named; the checksums are its section 2.1's. -/

open Sys2Proof Sys2Proof.Machine Sys2Proof.Claims

namespace Sys2Proof.Tests

/-- The outcome is a next state with the property. -/
def nextWith {α : Type} (o : Host.Outcome α Fault Refusal) (p : α → Bool) : Bool :=
  match o with
  | .next t => p t
  | .fault _ | .refused _ => false

/-- A next state with the property exists. -/
theorem exists_next {α : Type} {o : Host.Outcome α Fault Refusal} {p : α → Bool} (h : nextWith o p = true) :
    ∃ t, o = .next t ∧ p t = true := by
  cases o with
  | next t => exact ⟨t, rfl, h⟩
  | fault _ => cases h
  | refused _ => cases h

/-- A next state exists. -/
theorem exists_next_true {α : Type} {o : Host.Outcome α Fault Refusal} (h : nextWith o (fun _ => true) = true) :
    ∃ t, o = .next t := (exists_next h).imp fun _ ht => ht.1

/-- The outcome is the refusal. -/
def refusedWith {α : Type} (o : Host.Outcome α Fault Refusal) (r : Refusal) : Bool :=
  match o with
  | .refused q => decide (q = r)
  | .next _ | .fault _ => false

/-- The reset state with an input loaded, and `CTRL.STRICT` set as told. -/
def withInput (b : List Byte) (strict : Bool := false) : State := (State.reset.storeInput b).setStrict strict

/-- The reset state with a word in `TIN`. -/
def withTin (v : Word) : State := State.reset.setTin v

/-- The reset state with a held type code and a payload. -/
def withCode (v : Word) (b : List Byte) : State := (State.reset.storePayload b).holdTypeCode v

/-- The record "TeSt"/"hi" held with the checksum `c`, as read from an input. -/
def heldHi (c : Word) (ok : Bool) : State := (withCode 0x54655374#32 [0x68#8, 0x69#8]).holdRecord 2#32 c true ok

/-- "TeSt" and "hi". -/
def hi : List Byte := [0x54#8, 0x65#8, 0x53#8, 0x74#8, 0x68#8, 0x69#8]

/-- `R1` of section 2.3 without its checksum. -/
def r1Head : List Byte := [0x00#8, 0x00#8, 0x00#8, 0x02#8] ++ hi

/-- `R1` of section 2.3. -/
def r1 : List Byte := r1Head ++ [0x64#8, 0x05#8, 0x4B#8, 0xEC#8]

/-- `R1` with its last byte wrong (V-REC-4). -/
def r1Bad : List Byte := r1Head ++ [0x64#8, 0x05#8, 0x4B#8, 0xED#8]

/-- `MSG` of section 95. -/
def msg : List Byte :=
  [0x54#8, 0x68#8, 0x69#8, 0x73#8, 0x20#8, 0x69#8, 0x73#8, 0x20#8, 0x77#8, 0x68#8, 0x65#8, 0x72#8, 0x65#8, 0x20#8] ++
  [0x79#8, 0x6F#8, 0x75#8, 0x72#8, 0x20#8, 0x73#8, 0x65#8, 0x63#8, 0x72#8, 0x65#8, 0x74#8, 0x20#8, 0x6D#8, 0x65#8] ++
  [0x73#8, 0x73#8, 0x61#8, 0x67#8, 0x65#8, 0x20#8, 0x77#8, 0x69#8, 0x6C#8, 0x6C#8, 0x20#8, 0x62#8, 0x65#8, 0x21#8]

/-- The record of `IEND`, the last 12 bytes of P2's input. -/
def iend : List Byte := [0x00#8, 0x00#8, 0x00#8, 0x00#8, 0x49#8, 0x45#8, 0x4E#8, 0x44#8, 0xAE#8, 0x42#8, 0x60#8, 0x82#8]

/-! ### Decoding: words written out from the fields of R78 and the rows of R80 -/

theorem test_decode_system : decode 0x00000000#32 = .ok .nop ∧ decode 0x01000000#32 = .ok .sysReset := by decide
theorem test_decode_crc :
    decode 0x10000000#32 = .ok .crcInit ∧ decode 0x110000FF#32 = .ok (.crcByte 0xFF#8) ∧
    decode 0x11000000#32 = .ok (.crcByte 0#8) ∧ decode 0x12000000#32 = .ok .crcTyp ∧
    decode 0x13000000#32 = .ok .crcPay ∧ decode 0x14000000#32 = .ok .crcFin ∧ decode 0x15000000#32 = .ok .crcVerify := by
  decide
theorem test_decode_type : decode 0x20000000#32 = .ok .typeStrict ∧ decode 0x21000000#32 = .ok .typeRaw := by decide
theorem test_decode_record :
    decode 0x30000000#32 = .ok .recParse ∧ decode 0x31000000#32 = .ok .recBuild ∧
    decode 0x32000000#32 = .ok .recEmit := by decide
theorem test_decode_stream : decode 0x40000000#32 = .ok .sigCheck ∧ decode 0x41000000#32 = .ok .sigEmit := by decide

/-- V-SYS-2 to V-SYS-6, V-CRC-23. -/
theorem test_decode_illegal :
    decode 0x02000000#32 = .error .badOpcode ∧ decode 0xFF000000#32 = .error .badOpcode ∧
    decode 0x02000100#32 = .error .badOpcode ∧ decode 0x10000001#32 = .error .badField ∧
    decode 0x10000100#32 = .error .badField ∧ decode 0x11000100#32 = .error .badField ∧
    decode 0x10800000#32 = .error .badField := by decide
theorem test_decodeTableWord :
    decodeTableWord 32 0x11000031 = some (.crcByte 0x31#8) ∧ decodeTableWord 32 0x02000000 = none := by decide

/-! ### What is refused as ill formed -/

theorem test_wf_capacities :
    Config.wf Config.reference = true ∧ Config.wf ⟨12, 4⟩ = true ∧ Config.wf ⟨11, 4⟩ = false ∧
    Config.wf ⟨12, 3⟩ = false ∧ Config.wf ⟨2 ^ 32, 2 ^ 32 - 1⟩ = false ∧ Config.wf ⟨12, 2 ^ 32⟩ = false := by decide
theorem test_wf_loadIn :
    HostAction.wf ⟨12, 4⟩ (.loadIn (List.replicate 12 0#8)) = true ∧
    HostAction.wf ⟨12, 4⟩ (.loadIn (List.replicate 13 0#8)) = false := by decide
theorem test_wf_loadPay :
    HostAction.wf ⟨12, 4⟩ (.loadPay (List.replicate 4 0#8)) = true ∧
    HostAction.wf ⟨12, 4⟩ (.loadPay (List.replicate 5 0#8)) = false := by decide
theorem test_enabled_drain :
    State.enabled ⟨12, 4⟩ (.drainOut 0) State.reset = true ∧ State.enabled ⟨12, 4⟩ (.drainOut 1) State.reset = false := by
  decide

/-! ### Storage -/

theorem test_memory_canonical :
    Memory.write [(1, 0x41#8)] 1 0#8 = [] ∧ Memory.write [(1, 0x41#8)] 0 0x42#8 = [(0, 0x42#8), (1, 0x41#8)] := by decide
theorem test_reset_memory_wf : Memory.wf State.reset.inMem ∧ Memory.wf State.reset.payMem := by decide
/-- R53: be32 and bytes_be32 in `RuSt`, V-TYP-1. -/
theorem test_be32 :
    be32 [0x52#8, 0x75#8, 0x53#8, 0x74#8] = 0x52755374#32 ∧
    bytesBe32 0x52755374#32 = [0x52#8, 0x75#8, 0x53#8, 0x74#8] := by decide

/-! ### The commands -/

/-- V-SYS-8. -/
theorem test_nop :
    nextWith (exec .nop (State.reset.fail .badOpcode)) (fun t => decide (t.status = 0x00007000#32)) = true := by decide
/-- V-SYS-7. -/
theorem test_sysReset :
    nextWith (exec .sysReset (heldHi 0x64054BEC#32 true)) (fun t =>
      decide (t.status = 0x00007000#32 ∧ t.payLen = 0#32 ∧ t.acc = 0xFFFFFFFF#32 ∧ t.typ = 0#32)) = true := by decide
/-- R106. -/
theorem test_crcInit :
    nextWith (exec .crcInit (State.reset.setAcc 5#32)) (fun t => decide (t.acc = 0xFFFFFFFF#32)) = true := by decide
/-- P4, its first byte. -/
theorem test_crcByte :
    nextWith (exec (.crcByte 0x31#8) State.reset) (fun t => decide (t.acc = 0x7C231048#32)) = true := by decide +kernel
/-- P4, its last byte. -/
theorem test_crcByte_last :
    nextWith (exec (.crcByte 0x39#8) (State.reset.setAcc 0x651F2550#32)) (fun t => decide (t.acc = 0x340BC6D9#32)) = true := by
  decide +kernel
/-- V-CRC-24. -/
theorem test_crcTyp :
    nextWith (exec .crcTyp State.reset) (fun t => decide (t.acc = 0xDEBB20E3#32)) = true := by decide +kernel
/-- P6. -/
theorem test_crcTyp_order :
    nextWith (exec .crcTyp (withCode 0x54655374#32 [])) (fun t => decide (t.acc = 0x12360A6F#32)) = true := by
  decide +kernel
/-- P6. -/
theorem test_crcPay :
    nextWith (exec .crcPay ((withCode 0x54655374#32 [0x68#8, 0x69#8]).setAcc 0x12360A6F#32))
      (fun t => decide (t.acc = 0x9BFAB413#32)) = true := by decide +kernel
/-- V-CRC-21, and P4's last line. -/
theorem test_crcFin :
    nextWith (exec .crcFin State.reset) (fun t => decide (t.ccrc = 0#32)) = true ∧
    nextWith (exec .crcFin (State.reset.setAcc 0x340BC6D9#32)) (fun t => decide (t.ccrc = 0xCBF43926#32)) = true := by
  decide
/-- V-CRC-26. -/
theorem test_crcVerify_mismatch :
    nextWith (exec .crcVerify (heldHi 0x64054BED#32 true)) (fun t =>
      decide (t.ccrc = 0x64054BEC#32 ∧ t.status = 0x0001D700#32 ∧ t.crc = 0x64054BED#32)) = true := by decide +kernel
/-- V-CRC-25. -/
theorem test_crcVerify_noRecord :
    nextWith (exec .crcVerify State.reset) (fun t => decide (t.status = 0x0000703F#32)) = true := by decide
/-- V-TYP-1, V-TYP-3, V-TYP-9, V-TYP-11. -/
theorem test_typeStrict_takes :
    nextWith (exec .typeStrict (withTin 0x52755374#32)) (fun t => decide (t.status = 0x0001D200#32)) = true ∧
    nextWith (exec .typeStrict (withTin 0x49454E44#32)) (fun t => decide (t.status = 0x00017200#32)) = true ∧
    nextWith (exec .typeStrict (withTin 0x41415A5A#32)) (fun t => decide (t.status = 0x00017200#32)) = true ∧
    nextWith (exec .typeStrict (withTin 0x61615A7A#32)) (fun t => decide (t.status = 0x0001C200#32)) = true := by decide
/-- V-TYP-2, V-TYP-4 to V-TYP-8, V-TYP-10, V-TYP-13. -/
theorem test_typeStrict_rejects :
    ([0x52757374#32, 0x61617A7A#32].all fun v => nextWith (exec .typeStrict (withTin v)) fun t =>
      decide (t.status = 0x00007002#32 ∧ t.typ = 0#32)) = true ∧
    ([0x52753174#32, 0x52754074#32, 0x52755B74#32, 0x52756074#32, 0x52757B74#32, 0x52558074#32].all fun v =>
      nextWith (exec .typeStrict (withTin v)) fun t => decide (t.status = 0x00007001#32 ∧ t.typ = 0#32)) = true := by
  decide
/-- V-TYP-2, V-TYP-10. -/
theorem test_typeRaw_takes :
    nextWith (exec .typeRaw (withTin 0x52757374#32)) (fun t => decide (t.status = 0x00009200#32)) = true ∧
    nextWith (exec .typeRaw (withTin 0x61617A7A#32)) (fun t => decide (t.status = 0x00008200#32)) = true := by decide
/-- V-TYP-4 to V-TYP-8, V-TYP-12, V-TYP-13. -/
theorem test_typeRaw_rejects :
    ([0x52753174#32, 0x52754074#32, 0x52755B74#32, 0x52756074#32, 0x52757B74#32, 0#32, 0x52558074#32].all fun v =>
      nextWith (exec .typeRaw (withTin v)) fun t => decide (t.status = 0x00007001#32 ∧ t.typ = 0#32)) = true := by
  decide
/-- V-REC-2 to V-REC-4, V-REC-6, V-REC-15, V-REC-16. -/
theorem test_recParse_takes :
    (∀ b : Bool, nextWith (exec .recParse (withInput r1 b)) (fun t =>
      decide (t.len = 2#32 ∧ t.typ = 0x54655374#32 ∧ t.payload = [0x68#8, 0x69#8] ∧ t.crc = 0x64054BEC#32 ∧
        t.ccrc = t.crc ∧ t.acc = 0x9BFAB413#32 ∧ t.rp = 14#32 ∧ t.status = 0x0001DF00#32)) = true) ∧
    nextWith (exec .recParse (withInput (r1 ++ [0xAA#8, 0xBB#8]))) (fun t => decide (t.rp = 14#32 ∧ t.inLen = 16#32)) = true ∧
    nextWith (exec .recParse (withInput r1Bad)) (fun t =>
      decide (t.crc = 0x64054BED#32 ∧ t.ccrc = 0x64054BEC#32 ∧ t.rp = 14#32 ∧ t.status = 0x0001D700#32)) = true ∧
    (∀ b : Bool, nextWith (exec .recParse (withInput r1Head b)) (fun t =>
      decide (t.crc = 0x64054BEC#32 ∧ t.ccrc = t.crc ∧ t.rp = 10#32 ∧ t.status = 0x0001DB00#32)) = true) ∧
    nextWith (exec .recParse (withInput [0#8, 0#8, 0#8, 0#8, 0x54#8, 0x65#8, 0x53#8, 0x74#8])) (fun t =>
      decide (t.len = 0#32 ∧ t.crc = 0xEDC9F590#32 ∧ t.rp = 8#32 ∧ t.status = 0x0001DB00#32)) = true ∧
    (∀ b : Bool, nextWith (exec .recParse (withInput
        [0#8, 0#8, 0#8, 0#8, 0x54#8, 0x65#8, 0x73#8, 0x74#8, 0x78#8, 0x4D#8, 0xD1#8, 0x32#8] b)) (fun t =>
      decide (t.crc = 0x784DD132#32 ∧ t.ccrc = t.crc ∧ t.rp = 12#32 ∧ t.status = 0x00009F00#32)) = true) := by
  decide +kernel
/-- V-REC-5, V-REC-7 to V-REC-14. -/
theorem test_recParse_rejects :
    nextWith (exec .recParse (withInput r1Bad true)) (fun t =>
      decide (t = { withInput r1Bad true with err := 9#4 })) = true ∧
    (∀ n ∈ [11, 12, 13], nextWith (exec .recParse (withInput (r1.take n))) (fun t =>
      decide (t.status = 0x00007034#32 ∧ t.rp = 0#32)) = true) ∧
    (∀ n ∈ [8, 9], nextWith (exec .recParse (withInput (r1.take n))) (fun t => decide (t.status = 0x00007005#32)) = true) ∧
    (∀ n ∈ [0, 7], nextWith (exec .recParse (withInput (r1.take n))) (fun t => decide (t.status = 0x00007014#32)) = true) ∧
    nextWith (exec .recParse (withInput [0xFF#8, 0xFF#8, 0xFF#8, 0xFF#8, 0x54#8, 0x65#8, 0x53#8, 0x74#8])) (fun t =>
      decide (t.status = 0x00007005#32)) = true ∧
    nextWith (exec .recParse (withInput [0xFF#8, 0xFF#8, 0xFF#8, 0xFF#8, 0x54#8, 0x65#8, 0x35#8, 0x74#8])) (fun t =>
      decide (t.status = 0x00007024#32)) = true := by decide +kernel
/-- V-REC-1. -/
theorem test_recBuild :
    nextWith (exec .recBuild (withCode 0x52755374#32 msg)) (fun t =>
      decide (t.len = 42#32 ∧ t.crc = 0xABD1D84E#32 ∧ t.ccrc = t.crc ∧ t.acc = 0x542E27B1#32 ∧
        t.status = 0x0001DB00#32)) = true := by decide +kernel
/-- V-REC-17. -/
theorem test_recBuild_noCode :
    nextWith (exec .recBuild State.reset) (fun t => decide (t.status = 0x0000703F#32)) = true := by decide
/-- V-REC-19: the wrong checksum is emitted as it is. -/
theorem test_recEmit :
    nextWith (exec .recEmit (heldHi 0x64054BED#32 false)) (fun t => decide (t.out = r1Bad)) = true := by decide
/-- V-REC-18. -/
theorem test_recEmit_noRecord :
    nextWith (exec .recEmit State.reset) (fun t => decide (t.status = 0x0000703F#32 ∧ t.out = [])) = true := by decide
/-- V-SIG-1, V-SIG-5. -/
theorem test_sigCheck_takes :
    nextWith (exec .sigCheck (withInput Config.signature)) (fun t =>
      decide (t.rp = 8#32 ∧ t.status = 0x00007000#32)) = true ∧
    nextWith (exec .sigCheck (withInput (Config.signature ++ [0x6A#8, 0x75#8, 0x6E#8, 0x6B#8]))) (fun t =>
      decide (t.rp = 8#32)) = true := by decide
/-- V-SIG-2 to V-SIG-4. -/
theorem test_sigCheck_rejects :
    ∀ b ∈ [[0x89#8, 0x50#8, 0x4E#8, 0x47#8, 0x0D#8, 0x0A#8, 0x1A#8, 0x0B#8, 0x78#8, 0x79#8, 0x7A#8],
        [0x89#8, 0x50#8, 0x4E#8, 0x47#8, 0x0D#8, 0x0A#8, 0x1A#8], []],
      nextWith (exec .sigCheck (withInput b)) (fun t =>
        decide (t.status = 0x00007006#32 ∧ t.rp = 0#32 ∧ t.epos = 0#32)) = true := by decide
/-- V-SIG-6. -/
theorem test_sigEmit :
    nextWith (exec .sigEmit State.reset) (fun t =>
      decide (t.out = [0x89#8, 0x50#8, 0x4E#8, 0x47#8, 0x0D#8, 0x0A#8, 0x1A#8, 0x0A#8])) = true := by decide

/-! ### Host actions and the step -/

/-- V-SYS-9, V-SYS-10. -/
theorem test_hostWrite :
    nextWith (hostAct Config.reference (.writeReg 2 0xFFFFFFFF#32) State.reset) (fun t =>
      decide (t.readReg 2 = 1#32)) = true ∧
    nextWith (hostAct Config.reference (.writeReg 4 0x12345678#32) State.reset) (fun t =>
      decide (t = State.reset)) = true := by decide
/-- V-REC-21. -/
theorem test_hostLoadPay :
    nextWith (hostAct Config.reference (.loadPay [0x68#8, 0x69#8]) (heldHi 0x64054BEC#32 true)) (fun t =>
      decide (t.status = 0x0001D200#32)) = true := by decide
/-- R174 at the capacity and beyond it, R177 beyond `OUT`. -/
theorem test_hostMoves :
    nextWith (hostAct ⟨12, 4⟩ (.loadIn (List.replicate 12 1#8)) State.reset) (fun t => decide (t.inLen = 12#32)) = true ∧
    refusedWith (hostAct ⟨12, 4⟩ (.loadIn (List.replicate 13 1#8)) State.reset) .hostMoveNotEnabled = true ∧
    refusedWith (hostAct ⟨12, 4⟩ (.drainOut 1) State.reset) .hostMoveNotEnabled = true := by decide
/-- V-SYS-2, V-SYS-5: an illegal word written to `CMD`. -/
theorem test_step_illegalWord :
    nextWith (step (State.reset.withCommand 0x02000000#32)) (fun t => decide (t.status = 0x0000701F#32)) = true ∧
    nextWith (step (State.reset.withCommand 0x10000001#32)) (fun t => decide (t.status = 0x0000702F#32)) = true := by decide
/-- V-CRC-22, as the first command after reset. -/
theorem test_withFetchWord :
    nextWith (step (State.reset.withFetchWord 32 0x110000FF)) (fun t =>
      decide (t.acc = 0x00FFFFFF#32 ∧ t.status = 0x00007000#32 ∧ t.pending = [])) = true := by decide +kernel

/-! ### Host procedures -/

/-- P2: a stream of two records. -/
theorem test_streamParse :
    nextWith (streamParse Config.reference (Config.signature ++ r1 ++ iend) State.reset) (fun p =>
      decide (p.1 = .parsed [⟨2#32, 0x54655374#32, [0x68#8, 0x69#8], 0x64054BEC#32⟩,
          ⟨0#32, 0x49454E44#32, [], 0xAE426082#32⟩] ∧ p.2.rp = 34#32)) = true := by decide +kernel
/-- P2: the same two records emitted. -/
theorem test_streamEmit :
    nextWith (streamEmit Config.reference [⟨2#32, 0x54655374#32, [0x68#8, 0x69#8], 0x64054BEC#32⟩,
          ⟨0#32, 0x49454E44#32, [], 0xAE426082#32⟩] State.reset) (fun t =>
      decide (t.out = Config.signature ++ r1 ++ iend)) = true := by decide +kernel
/-- V-SIG-5: the failing record's offset is 8 (R221). -/
theorem test_streamParse_malformed :
    nextWith (streamParse Config.reference (Config.signature ++ [0x6A#8, 0x75#8, 0x6E#8, 0x6B#8]) State.reset) (fun p =>
      decide (p.1 = .malformedChunk 8#32 4#4 1#4)) = true := by decide
/-- R181, R182 and V-TYP-1. -/
theorem test_parseFromText :
    nextWith (parseFromText ['R', 'u', 'S', 't', 'y'] State.reset) (fun p => decide (p.1 = .failed .tooLong)) = true ∧
    nextWith (parseFromText ['R', 'u', 'S'] State.reset) (fun p => decide (p.1 = .refused)) = true ∧
    nextWith (parseFromText ['R', 'u', 'S', 't'] State.reset) (fun p => decide (p.1 = .typeCode 0x52755374#32)) = true ∧
    renderAsText 0x52755374#32 = ['R', 'u', 'S', 't'] := by decide
/-- V-TYP-1 and V-TYP-2 by the two routes of R185, with V-REC-2's checksum for `TeSt` and `hi`. -/
theorem test_buildFromText :
    nextWith (buildFromText Config.reference .strict ['T', 'e', 'S', 't'] "hi" State.reset) (fun p =>
      decide (p.1 = .typeCode 0x54655374#32 ∧ p.2.crc = 0x64054BEC#32 ∧ p.2.status = 0x0001DB00#32)) = true ∧
    nextWith (buildFromText Config.reference .strict ['R', 'u', 's', 't'] "hi" State.reset) (fun p =>
      decide (p.1 = .failed .reservedBitSet ∧ p.2.status = 0x00007002#32)) = true ∧
    nextWith (buildFromText Config.reference .raw ['R', 'u', 's', 't'] "hi" State.reset) (fun p =>
      decide (p.1 = .typeCode 0x52757374#32 ∧ p.2.payload = [0x68#8, 0x69#8])) = true := by decide +kernel
/-- The choices of log 17. -/
theorem test_assemble_rejects :
    assembleWords ".in" (lexLine false [] ['"', 'a', 'b']) = .error .badOperand ∧
    assembleWords ".ctrl" [.word ['4', '2', '9', '4', '9', '6', '7', '2', '9', '6']] = .error .badOperand ∧
    assembleWords ".ctrl" [.word ['4', '2', '9', '4', '9', '6', '7', '2', '9', '5']] =
      .ok [.writeCtrl 0xFFFFFFFF#32] ∧
    assembleWords "CRC.BYTES" [] = .error .badOperand ∧ assembleWords ".pay" [] = .ok [.loadPay []] := by decide +kernel
/-- P4 and P6 in the syntax of R83. -/
theorem test_assemble :
    assembleWords "CRC.BYTE" [.word ['#', '0', 'x', '3', '1']] = .ok [.command (.crcByte 0x31#8)] ∧
    assembleWords "CRC.REC" [] = .ok [.command .crcInit, .command .crcTyp, .command .crcPay, .command .crcFin] ∧
    assembleWords ".tin" [.quoted ['T', 'e', 'S', 't']] = .ok [.writeTin 0x54655374#32] ∧
    lexLine false [] ['.', 'i', 'n', ' ', '6', '8', ' ', '"', 'a', 'b', '"', ' ', ';', 'x'] =
      [.word ['.', 'i', 'n'], .word ['6', '8'], .quoted ['a', 'b']] := by decide +kernel

/-! ### Witnesses: for each statement with hypotheses, a state and operands that meet them, clause by clause, at the
bounds of their ranges -/

theorem witness_WordMatchesItsOpcodeRow : (⟨"CRC.BYTE", 0x11000000#32, 0xFFFFFF00#32⟩ : OpcodeRow) ∈ opcodeTable := by
  decide

theorem witness_EveryWordIsOneCommandOrIllegal :
    (¬ KnownOpcode 0x42000000#32 ∧ ¬ KnownOpcode 0x02000100#32) ∧
    (KnownOpcode 0x41000100#32 ∧ rsvField 0x41000100#32 ≠ 0#16) ∧
    (KnownOpcode 0x10000001#32 ∧ immField 0x10000001#32 ≠ 0#8 ∧ opcField 0x10000001#32 ≠ 0x11#8) ∧
    (KnownOpcode 0x10000000#32 ∧ rsvField 0x10000000#32 = 0#16 ∧ immField 0x10000000#32 = 0#8) ∧
    (KnownOpcode 0x110000FF#32 ∧ rsvField 0x110000FF#32 = 0#16 ∧ opcField 0x110000FF#32 = 0x11#8) := by
  unfold KnownOpcode
  decide

theorem witness_StepRunsTheCommandWrittenToCmd :
    (State.reset.withCommand 0x10000000#32).pending = .writeReg 0 0x10000000#32 :: [] ∧
    decode 0x10000000#32 = .ok .crcInit := by decide

theorem witness_StepStopsOnlyWhereTheHostHasNoMove :
    State.reset.pending = [] ∧
    State.reset.enabled Config.machine (.loadIn (List.replicate Config.machine.inCap 0#8)) = true ∧
    State.reset.enabled Config.machine (.loadIn (List.replicate (Config.machine.inCap + 1) 0#8)) = false ∧
    State.reset.enabled Config.machine (.drainOut 0) = true ∧
    State.reset.enabled Config.machine (.drainOut 1) = false := by
  simp [State.enabled, HostAction.wf, State.reset]

theorem witness_ResetStateHasTheStatedValues : ∀ n ∈ [0, 3, 7, 9, 12, 13], n ∉ [1, 2, 8] := by decide

theorem witness_EachCommandAtReset :
    Instr.sysReset ∈ [Instr.crcInit, .crcTyp, .crcPay, .crcFin, .nop, .sigEmit, .sysReset] ∧
    ∃ b, Instr.crcByte 0xFF#8 = Instr.crcByte b := ⟨by decide, _, rfl⟩

theorem witness_CrcByteStepsTheAccumulator :
    opcField 0x11000100#32 = 0x11#8 ∧ rsvField 0x11000100#32 ≠ 0#16 ∧
    opcField 0x11800031#32 = 0x11#8 ∧ rsvField 0x11800031#32 ≠ 0#16 := by decide

theorem witness_CrcVerifyReportsTheComparison :
    (heldHi 0x64054BED#32 false).held = true ∧ State.reset.held = false := by decide

theorem witness_VerifyAfterBuildConfirms :
    (withCode 0x54655374#32 [0x68#8, 0x69#8]).tok = true ∧
    ∃ t, exec .recBuild (withCode 0x54655374#32 [0x68#8, 0x69#8]) = .next t ∧
      nextWith (Sys2Proof.core.run 1 (t.setPending ((expandCrcBytes [0x31#8]).map fun i => .writeReg 0 (encode i))))
        (fun _ => true) = true :=
  ⟨rfl, exists_next (p := fun t : State => nextWith (Sys2Proof.core.run 1
    (t.setPending ((expandCrcBytes [0x31#8]).map fun i => .writeReg 0 (encode i)))) fun _ => true) (by decide +kernel)⟩

theorem witness_ManualCrcEqualsTheBuiltOne :
    ((withCode 0x54655374#32 [0x68#8, 0x69#8]).setPending
      [.writeReg 0 0x10000000#32, .writeReg 0 0x12000000#32, .writeReg 0 0x13000000#32, .writeReg 0 0x14000000#32]).pending
      = expandCrcRec.map (fun i => .writeReg 0 (encode i)) ++ [] ∧
    (withCode 0x54655374#32 [0x68#8, 0x69#8]).tok = true := by decide

/-- The bounds of R120, V-TYP-5 to V-TYP-11. -/
theorem witness_TypeStrictTakesValidCodes :
    (AllLetters (withTin 0x41615A7A#32).tin ∧ (withTin 0x41615A7A#32).tin.getLsbD 13 = false) ∧
    (¬ AllLetters (withTin 0x52754074#32).tin ∧ ¬ AllLetters (withTin 0x52755B74#32).tin ∧
      ¬ AllLetters (withTin 0x52756074#32).tin ∧ ¬ AllLetters (withTin 0x52757B74#32).tin) ∧
    (AllLetters (withTin 0x61617A7A#32).tin ∧ (withTin 0x61617A7A#32).tin.getLsbD 13 = true) := by
  unfold AllLetters AsciiLetter
  decide

theorem witness_TypeRawTakesLetterCodes :
    AllLetters (withTin 0x41615A7A#32).tin ∧ AllLetters (withTin 0x61617A7A#32).tin ∧
    ¬ AllLetters (withTin 0x52754074#32).tin ∧ ¬ AllLetters (withTin 0x52755B74#32).tin ∧
    ¬ AllLetters (withTin 0x52756074#32).tin ∧ ¬ AllLetters (withTin 0x52757B74#32).tin := by
  unfold AllLetters AsciiLetter
  decide

theorem witness_ParseTakesOrRejectsOneRecord_stored :
    (∀ b : Bool, Memory.wf (withInput r1 b).payMem ∧ 12 + recLen (withInput r1 b) = avail (withInput r1 b) ∧
      recLetters (withInput r1 b) ∧ recStored (withInput r1 b) = (recComputed (withInput r1 b)).toNat) ∧
    (12 + recLen (withInput r1Bad) ≤ avail (withInput r1Bad) ∧ recLetters (withInput r1Bad) ∧
      (withInput r1Bad).strict = false ∧ recStored (withInput r1Bad) ≠ (recComputed (withInput r1Bad)).toNat) := by
  unfold recLetters AsciiLetter
  decide +kernel

theorem witness_ParseTakesOrRejectsOneRecord_missing :
    ∀ b : Bool, Memory.wf (withInput r1Head b).payMem ∧ 8 + recLen (withInput r1Head b) = avail (withInput r1Head b) ∧
      recLetters (withInput r1Head b) := by
  unfold recLetters AsciiLetter
  decide +kernel

theorem witness_ParseTakesOrRejectsOneRecord_rejects :
    avail (withInput (r1.take 7)) = 7 ∧
    (avail (withInput [0#8, 0#8, 0#8, 0#8, 0x54#8, 0x65#8, 0x35#8, 0x74#8]) = 8 ∧
      ¬ recLetters (withInput [0#8, 0#8, 0#8, 0#8, 0x54#8, 0x65#8, 0x35#8, 0x74#8])) ∧
    (∀ n ∈ [8, 9], 8 ≤ avail (withInput (r1.take n)) ∧ recLetters (withInput (r1.take n)) ∧
      avail (withInput (r1.take n)) < 8 + recLen (withInput (r1.take n))) ∧
    (recLetters (withInput r1Bad true) ∧ 12 + recLen (withInput r1Bad true) = avail (withInput r1Bad true) ∧
      (withInput r1Bad true).strict = true ∧
      recStored (withInput r1Bad true) ≠ (recComputed (withInput r1Bad true)).toNat) ∧
    (∀ n ∈ [11, 13], recLetters (withInput (r1.take n)) ∧ 9 + recLen (withInput (r1.take n)) ≤ n ∧
      n ≤ 11 + recLen (withInput (r1.take n)) ∧ avail (withInput (r1.take n)) = n) := by
  unfold recLetters AsciiLetter
  decide +kernel

theorem witness_BuildHoldsTheComputedRecord :
    (withCode 0x54655374#32 []).tok = true ∧ State.reset.tok = false := by decide

theorem witness_EmitAppendsTheHeldRecord :
    (heldHi 0x64054BED#32 false).held = true ∧ State.reset.held = false := by decide

/-- An invariant that holds with the least capacities of R6 holds with all legal ones. -/
theorem inv_of_least {c : Config} {s : State} (hc : c.wf = true) (h : Inv ⟨12, 4⟩ s) : Inv c s where
  rp_le := h.rp_le
  inLen_le := Nat.le_trans h.inLen_le (Config.wf_bounds hc).1
  payLen_le := Nat.le_trans h.payLen_le (by have := Config.wf_bounds hc; simp only; omega)
  held_len := h.held_len
  held_tok := h.held_tok
  tok_letters := h.tok_letters
  computed := h.computed
  dropped := h.dropped
  reserved := h.reserved
  in_wf := h.in_wf
  pay_wf := h.pay_wf
  in_within := fun a ha => Nat.lt_of_lt_of_le (h.in_within a ha) (Config.wf_bounds hc).1
  pay_within := fun a ha => Nat.lt_of_lt_of_le (h.pay_within a ha) (by have := Config.wf_bounds hc; simp only; omega)

theorem inv_withCode : Inv ⟨12, 4⟩ (withCode 0x54655374#32 [0x68#8, 0x69#8]) := by
  constructor <;> decide

theorem witness_BuildEmitParseRoundTrip :
    Config.wf ⟨14, 6⟩ = true ∧ Inv ⟨14, 6⟩ (withCode 0x54655374#32 [0x68#8, 0x69#8]) ∧
    (withCode 0x54655374#32 [0x68#8, 0x69#8]).tok = true ∧
    12 + (withCode 0x54655374#32 [0x68#8, 0x69#8]).payLen.toNat = 14 :=
  ⟨by decide, inv_of_least (by decide) inv_withCode, rfl, by decide⟩

/-- Both clauses of the parse and emit round trip. -/
theorem witness_ParseEmitRoundTrip :
    Memory.wf (withInput r1Bad).payMem ∧
    nextWith (exec .recParse (withInput r1Bad)) (fun t => decide (t.err = 0#4 ∧ t.csrc = true)) = true ∧
    Memory.wf (withInput r1Head).payMem ∧
    nextWith (exec .recParse (withInput r1Head)) (fun t => decide (t.err = 0#4 ∧ t.csrc = false)) = true := by
  decide +kernel

theorem witness_SigCheckTestsTheEightBytes :
    (avail (withInput Config.signature) = 8 ∧
      (List.range 8).map (recByte (withInput Config.signature)) = Config.signature) ∧
    avail (withInput (Config.signature.take 7)) = 7 ∧
    (avail (withInput r1Head) = 10 ∧ (List.range 8).map (recByte (withInput r1Head)) ≠ Config.signature) := by decide

/-- The chunks of P2. -/
def chunkHi : Chunk := ⟨2#32, 0x54655374#32, [0x68#8, 0x69#8], 0x64054BEC#32⟩
def chunkEnd : Chunk := ⟨0#32, 0x49454E44#32, [], 0xAE426082#32⟩

theorem witness_StreamRoundTrip :
    Config.wf ⟨34, 26⟩ = true ∧ Memory.wf State.reset.inMem ∧ Memory.wf State.reset.payMem ∧
    (∀ k ∈ [chunkHi, chunkEnd], k.wf = true) ∧ (streamBytes [chunkHi, chunkEnd]).length = 34 ∧
    State.reset.strict = false ∧ (State.reset.setStrict true).strict = true ∧
    (∀ k ∈ [chunkHi, chunkEnd], k.crc = k.computed) := by decide +kernel

theorem witness_StreamParseEnds :
    Config.wf ⟨34, 26⟩ = true ∧ Memory.wf State.reset.inMem ∧ (streamBytes [chunkHi, chunkEnd]).length = 34 ∧
    (streamBytes [chunkHi, chunkEnd]).take 8 = Config.signature ∧ r1.take 8 ≠ Config.signature := by decide +kernel

theorem witness_HostWriteReachesThreeRegisters : ∀ n ∈ [1, 4, 12, 13], n ∉ [0, 2, 3] := by decide

theorem witness_HostReadGivesTheRegister : ¬ (12 < 12) ∧ 12 < 13 := by decide

theorem witness_HostLoadInReplacesTheInput :
    Config.wf ⟨12, 4⟩ = true ∧ Memory.wf (withInput r1).inMem ∧
    (List.replicate 12 1#8).length ≤ (⟨12, 4⟩ : Config).inCap ∧
    (⟨12, 4⟩ : Config).inCap < (List.replicate 13 1#8).length := by decide

theorem witness_HostLoadPayDropsTheRecord :
    Config.wf ⟨12, 4⟩ = true ∧ Memory.wf (heldHi 0x64054BEC#32 true).payMem ∧
    (List.replicate 4 1#8).length ≤ (⟨12, 4⟩ : Config).payCap ∧
    (⟨12, 4⟩ : Config).payCap < (List.replicate 5 1#8).length := by decide

theorem witness_HostReadsPayloadAndDrainsOutput :
    0 ≤ State.reset.out.length ∧ 8 ≤ (State.reset.emit Config.signature).out.length := by decide

/-- A state that runs `REC.BUILD` next, and completes. -/
def aboutToBuild : State := (withCode 0x54655374#32 [0x68#8, 0x69#8]).withCommand 0x31000000#32

theorem inv_aboutToBuild : Inv ⟨12, 4⟩ aboutToBuild := by constructor <;> decide

theorem witness_EveryStepKeepsTheInvariants :
    Inv Config.machine aboutToBuild ∧ Judged false aboutToBuild ∧ ∃ t, step aboutToBuild = .next t :=
  ⟨inv_of_least Config.machine_wf inv_aboutToBuild, fun h => absurd h (by decide), exists_next_true (by decide +kernel)⟩

theorem witness_CrcokTellsWhetherTheHeldRecordIsSound :
    Inv Config.machine aboutToBuild ∧
    (aboutToBuild.held = true → (aboutToBuild.crcok = true ↔ aboutToBuild.crc = aboutToBuild.heldChecksum)) ∧
    ∃ t, step aboutToBuild = .next t ∧ t.held = true :=
  ⟨inv_of_least Config.machine_wf inv_aboutToBuild, fun h => absurd h (by decide),
    exists_next (p := State.held) (by decide +kernel)⟩

/-- A failing command with `RP` not 0, and a committing one. -/
theorem witness_EposIsWrittenByFailuresAndResetOnly :
    nextWith (step ((withInput r1Head).advance 10 |>.withCommand 0x30000000#32)) (fun t =>
      decide (t.err ≠ 0#4 ∧ t.epos = 10#32)) = true ∧
    nextWith (step (State.reset.withCommand 0x00000000#32)) (fun t => decide (t.err = 0#4)) = true ∧
    decode 0x00000000#32 ≠ .ok .sysReset := by decide

/-- Each code a command writes (V-TYP-4, V-TYP-2, V-REC-10, V-REC-8, V-SIG-4, V-REC-5, V-REC-17, V-REC-18, V-CRC-25). -/
theorem witness_ErrorsComeFromTheirCommands :
    nextWith (exec .typeStrict (withTin 0x52753174#32)) (fun t => decide (t.err = 1#4)) = true ∧
    nextWith (exec .typeRaw (withTin 0x52753174#32)) (fun t => decide (t.err = 1#4)) = true ∧
    nextWith (exec .typeStrict (withTin 0x52757374#32)) (fun t => decide (t.err = 2#4)) = true ∧
    nextWith (exec .recParse (withInput (r1.take 7))) (fun t => decide (t.err = 4#4)) = true ∧
    nextWith (exec .recParse (withInput (r1.take 9))) (fun t => decide (t.err = 5#4)) = true ∧
    nextWith (exec .sigCheck State.reset) (fun t => decide (t.err = 6#4)) = true ∧
    nextWith (exec .recParse (withInput r1Bad true)) (fun t => decide (t.err = 9#4)) = true ∧
    (∀ i ∈ [.recBuild, .recEmit, .crcVerify],
      nextWith (exec i State.reset) (fun t => decide (t.err = 15#4 ∧ t.cause = 3#4)) = true) := by decide +kernel

theorem witness_AFailedCommandFailsAgain : ∃ t, exec .recBuild State.reset = .next t ∧ t.err ≠ 0#4 :=
  ⟨_, rfl, by decide⟩

theorem witness_RegistersChangeOnlyByTheirWriters :
    (∃ t, exec .nop State.reset = .next t ∧ t.err = 0#4) ∧ (∃ t, exec .recBuild State.reset = .next t ∧ t.err ≠ 0#4) ∧
    ∃ t, (∀ w, HostAction.readPay ≠ .writeReg 0 w) ∧ hostAct Config.reference .readPay State.reset = .next t :=
  ⟨⟨_, rfl, rfl⟩, ⟨_, rfl, by decide⟩, _, by simp, rfl⟩

theorem witness_CommandsWriteTheirStoresOnly :
    (∃ t, exec .sigEmit State.reset = .next t) ∧ Instr.sigEmit ≠ .recParse ∧ Config.signature ≠ [] :=
  ⟨⟨_, rfl⟩, by decide, by decide⟩

/-- One step of each kind that moves `RP`, and one that does not. -/
theorem witness_ReadCursorMovesOnlyAsStated :
    (∃ t, step aboutToBuild = .next t) ∧ (∃ t, step (withInput r1 |>.setPending [.hardReset]) = .next t) ∧
    (∃ t, step (withInput Config.signature |>.withCommand 0x40000000#32) = .next t) ∧
    (∃ t, step (withInput r1 |>.withCommand 0x30000000#32) = .next t) :=
  ⟨exists_next_true (by decide +kernel), exists_next_true (by decide +kernel), exists_next_true (by decide +kernel),
    exists_next_true (by decide +kernel)⟩

theorem witness_HeldRecordIsImmutable :
    ∃ t, step ((heldHi 0x64054BEC#32 true).withCommand 0x00000000#32) = .next t ∧
      ((heldHi 0x64054BEC#32 true).withCommand 0x00000000#32).held = true ∧ t.held = true ∧
      ¬ NextSucceeds .recParse ((heldHi 0x64054BEC#32 true).withCommand 0x00000000#32) t ∧
      ¬ NextSucceeds .recBuild ((heldHi 0x64054BEC#32 true).withCommand 0x00000000#32) t := by
  refine ⟨_, rfl, rfl, rfl, ?_, ?_⟩ <;>
    · rintro ⟨w, r, h, hd, -⟩
      cases h
      exact absurd hd (by decide)

/-- A record of 8 bytes at the front of `IN`, about to be parsed. -/
def aboutToParse : State := (withInput [0#8, 0#8, 0#8, 0#8, 0x54#8, 0x65#8, 0x53#8, 0x74#8]).withCommand 0x30000000#32

/-- The same with other bytes beyond `IN_LEN` and `PAY_LEN`. -/
def aboutToParseToo : State := { aboutToParse with inMem := aboutToParse.inMem.write 8 0x55#8, payMem := [(3, 0x66#8)] }

theorem witness_BytesWithoutValueAreNeverRead :
    Inv Config.machine aboutToParse ∧ Inv Config.machine aboutToParseToo ∧ SameReadable aboutToParse aboutToParseToo ∧
    (∃ t, step aboutToParse = .next t) ∧ aboutToParse ≠ aboutToParseToo := by
  refine ⟨inv_of_least Config.machine_wf ?_, inv_of_least Config.machine_wf ?_, ⟨rfl, ?_, ?_⟩, exists_next_true ?_, by decide⟩
  · constructor <;> decide
  · constructor <;> decide
  · decide
  · decide
  · decide +kernel

theorem witness_OutputNeverChangesACommandsResult : ∃ t, exec .recEmit (heldHi 0x64054BEC#32 true) = .next t := ⟨_, rfl⟩

theorem witness_AppendThenFindByType : ∀ j ∈ [chunkHi], j.typ ≠ chunkEnd.typ := by decide

/-- A first, a second and no chunk of the type (S7). -/
theorem witness_RemoveTakesTheFirstOfItsType :
    removeFirstChunk 0x49454E44#32 [chunkHi, chunkEnd, chunkEnd] = .ok (chunkEnd, [chunkHi, chunkEnd]) ∧
    removeFirstChunk 0x49454E44#32 [chunkHi] = .error .chunkNotFound := by decide

theorem witness_RemoveThenNotFound : ∀ j ∈ [chunkHi] ++ [chunkHi], j.typ ≠ chunkEnd.typ := by decide

theorem witness_TextBecomesATypeCode :
    4 < ['R', 'u', 'S', 't', 'y'].length ∧
    (['A', 'a', 'Z', 'z'].length = 4 ∧
      ∀ ch ∈ ['A', 'a', 'Z', 'z'], ch.toNat < 256 ∧ AsciiLetter (BitVec.ofNat 8 ch.toNat)) ∧
    (['R', 'u', '1', 't'].length = 4 ∧
      ∃ ch ∈ ['R', 'u', '1', 't'], ¬ (ch.toNat < 256 ∧ AsciiLetter (BitVec.ofNat 8 ch.toNat))) ∧
    (['R', 'u', 'š', 't'].length = 4 ∧
      ∃ ch ∈ ['R', 'u', 'š', 't'], ¬ (ch.toNat < 256 ∧ AsciiLetter (BitVec.ofNat 8 ch.toNat))) := by
  refine ⟨by decide, ⟨rfl, ?_⟩, ⟨rfl, '1', by decide, ?_⟩, rfl, 'š', by decide, ?_⟩
  · simp only [List.mem_cons, List.not_mem_nil, or_false, forall_eq_or_imp, forall_eq, AsciiLetter]
    decide
  · unfold AsciiLetter
    decide
  · exact fun h => absurd h.1 (by decide)

/-- Commands that read neither store, one or the other, with other bytes put where they do not read. -/
theorem witness_CommandsReadTheirStoresOnly :
    (∃ t, exec .nop State.reset = .next t) ∧ (∀ a, ¬ ReadsIn .nop State.reset a) ∧ (∀ a, ¬ ReadsPay .nop State.reset a) ∧
    (∃ t, exec .sigCheck (withInput r1) = .next t) ∧
    (∀ a, ReadsIn .sigCheck (withInput r1) a → ((withInput r1).inMem.write 8 0x55#8).read a = (withInput r1).inMem.read a) ∧
    (∃ t, exec .crcPay (withCode 0x54655374#32 [0x68#8, 0x69#8]) = .next t) ∧
    (∀ a, ReadsPay .crcPay (withCode 0x54655374#32 [0x68#8, 0x69#8]) a →
      ((withCode 0x54655374#32 [0x68#8, 0x69#8]).payMem.write 2 0x55#8).read a =
        (withCode 0x54655374#32 [0x68#8, 0x69#8]).payMem.read a) := by
  refine ⟨⟨_, rfl⟩, by simp [ReadsIn], by simp [ReadsPay], exists_next_true (by decide), fun a h => ?_, ⟨_, rfl⟩,
    fun a h => ?_⟩
  · have ha : a < 8 := by
      rcases h.2.2 with h | h
      · exact absurd h.1 (by decide)
      · exact h.2
    rw [Memory.read_write _ _ _ _ (by decide), if_neg (by omega)]
  · have ha : a < 2 := by
      rcases h with h | h
      · exact h.2
      · exact absurd h.1 (by decide)
    rw [Memory.read_write _ _ _ _ (by decide), if_neg (by omega)]

/-- Both clauses: either route without the reserved bit, the raw one with it, the strict one with it; the payload at the
capacity. -/
theorem witness_TextBuildsAChunk :
    Config.wf ⟨12, 4⟩ = true ∧ Memory.wf State.reset.payMem ∧ (utf8Bytes "hihi").length = 4 ∧
    (∀ ch ∈ ['T', 'e', 'S', 't'], ch.toNat < 256 ∧ AsciiLetter (BitVec.ofNat 8 ch.toNat)) ∧
    (textWord ['T', 'e', 'S', 't']).getLsbD 13 = false ∧
    (∀ ch ∈ ['T', 'e', 's', 't'], ch.toNat < 256 ∧ AsciiLetter (BitVec.ofNat 8 ch.toNat)) ∧
    (textWord ['T', 'e', 's', 't']).getLsbD 13 = true := by
  simp only [List.mem_cons, List.not_mem_nil, or_false, forall_eq_or_imp, forall_eq, AsciiLetter]
  decide +kernel

end Sys2Proof.Tests
end

section
/-! SUPPORT. The fields of `STATUS` (R22) as functions of the state, the class flags as bits of `TYP` (R122, R123), and the
reset values of the registers (R30). -/

namespace Sys2Proof.Machine

open Sys2Proof.Claims

/-! ### The type-code predicates in the spec's own numbers -/

theorem isCritical_eq_bit (v : Word) : isCritical v = !v.getLsbD 29 := by
  simp [isCritical, typeByte]

theorem isPublic_eq_bit (v : Word) : isPublic v = !v.getLsbD 21 := by
  simp [isPublic, typeByte]

theorem rsvOk_eq_bit (v : Word) : rsvOk v = !v.getLsbD 13 := by
  simp [rsvOk, typeByte]

theorem isSafeToCopy_eq_bit (v : Word) : isSafeToCopy v = v.getLsbD 5 := by
  simp [isSafeToCopy, typeByte]

theorem isLetter_iff (b : Byte) : isLetter b = true ↔ AsciiLetter b := by
  simp [isLetter, AsciiLetter]

theorem letters_iff_allLetters (v : Word) : letters (bytesBe32 v) = true ↔ AllLetters v := by
  simp [letters_bytesBe32, isLetter_iff, AllLetters]

theorem isValid_iff (v : Word) : isValid v = true ↔ AllLetters v ∧ rsvOk v = true := by
  simp [isValid, letters_iff_allLetters]

/-! ### The fields of `STATUS` (R22) -/

/-- The one-bit fields of `STATUS`, bit 8 first: the stored flags (R23), then the class flags (R24). -/
def State.statusFlags (s : State) : List Bool :=
  [s.held, s.tok, s.csrc, s.crcok, isCritical s.typ, isPublic s.typ, rsvOk s.typ, isSafeToCopy s.typ, isValid s.typ]

section StatusFields

variable (s : State)

@[simp] theorem State.status_err : s.status.extractLsb' 0 4 = s.err :=
  BitVec.extractLsb'_append_eq_right

@[simp] theorem State.status_cause : s.status.extractLsb' 4 4 = s.cause := by
  refine BitVec.eq_of_getLsbD_eq fun k hk => ?_
  simp only [State.status, BitVec.getLsbD_extractLsb', BitVec.getLsbD_append]
  simp [hk]

/-- Above the error report `STATUS` is the list of its flags, and 0 beyond the list. -/
theorem State.status_getLsbD_eq_flag (k : Nat) : s.status.getLsbD (k + 8) = s.statusFlags.getD k false := by
  simp only [State.status, BitVec.getLsbD_append]
  match k with
  | 0 | 1 | 2 | 3 | 4 | 5 | 6 | 7 | 8 => simp [State.statusFlags]
  | k + 9 => simp [State.statusFlags]

theorem State.status_held : s.status.getLsbD 8 = s.held := s.status_getLsbD_eq_flag 0

theorem State.status_tok : s.status.getLsbD 9 = s.tok := s.status_getLsbD_eq_flag 1

theorem State.status_csrc : s.status.getLsbD 10 = s.csrc := s.status_getLsbD_eq_flag 2

theorem State.status_crcok : s.status.getLsbD 11 = s.crcok := s.status_getLsbD_eq_flag 3

theorem State.status_isCritical : s.status.getLsbD 12 = isCritical s.typ := s.status_getLsbD_eq_flag 4

theorem State.status_isPublic : s.status.getLsbD 13 = isPublic s.typ := s.status_getLsbD_eq_flag 5

theorem State.status_rsvOk : s.status.getLsbD 14 = rsvOk s.typ := s.status_getLsbD_eq_flag 6

theorem State.status_isSafeToCopy : s.status.getLsbD 15 = isSafeToCopy s.typ := s.status_getLsbD_eq_flag 7

theorem State.status_isValid : s.status.getLsbD 16 = isValid s.typ := s.status_getLsbD_eq_flag 8

/-- Bits 31:17 are reserved, and there is no bit above them. -/
theorem State.status_reserved {k : Nat} (h : 17 ≤ k) : s.status.getLsbD k = false := by
  obtain ⟨j, rfl⟩ := Nat.exists_eq_add_of_le' h
  exact s.status_getLsbD_eq_flag (j + 9)

end StatusFields

/-! ### The reset state (R30) -/

@[simp] theorem State.reset_status : State.reset.status = 0x00007000#32 := by decide

@[simp] theorem State.reset_ctrl : State.reset.ctrl = 0#32 := by decide

/-- Every register but `STATUS`, `CTRL` and `ACC` is 0 at reset, those that do not exist (R32) among them. -/
theorem State.reset_readReg_zero : ∀ {n : Nat}, n ∉ [1, 2, 8] → State.reset.readReg n = 0#32
  | 1, h | 2, h | 8, h => absurd (by decide) h
  | 0, _ | 3, _ | 4, _ | 5, _ | 6, _ | 7, _ | 9, _ | 10, _ | 11, _ | 12, _ => rfl
  | _ + 13, _ => rfl

end Sys2Proof.Machine

namespace Sys2Proof.Claims

open Sys2Proof.Machine

/-- Settles O23: the fields of the concatenation that `STATUS` is, with the class flags read as bits of `TYP`. -/
theorem statusBitsAreTheTable : Obligations.StatusBitsAreTheTable := by
  refine ⟨fun s => ⟨s.status_err, s.status_cause, s.status_held, s.status_tok, s.status_csrc, s.status_crcok,
    ?crit, ?pub, ?rsv, ?safe, ?valid, fun _ => s.status_reserved⟩, State.reset_status⟩
  case crit => rw [State.status_isCritical, isCritical_eq_bit]
  case pub => rw [State.status_isPublic, isPublic_eq_bit]
  case rsv => rw [State.status_rsvOk, rsvOk_eq_bit]
  case safe => rw [State.status_isSafeToCopy, isSafeToCopy_eq_bit]
  case valid => rw [State.status_isValid, State.status_rsvOk, isValid_iff]

/-- Settles O10: `STATUS`, `CTRL` and `ACC` by name, and every other register number at once. -/
theorem resetStateHasTheStatedValues : Obligations.ResetStateHasTheStatedValues :=
  ⟨State.reset_status, State.reset_ctrl, rfl, fun _ => State.reset_readReg_zero, rfl⟩

end Sys2Proof.Claims
end

section
/-! SUPPORT. The three fields of a command word (R78), what the decoder answers by them (R81), and what it takes to match
a row of the opcode map (R80). -/

namespace Sys2Proof

/-! ### The fields of a word (R78) -/

/-- A word is its three fields, `OPC` first. -/
theorem append_fields (w : Word) : opcField w ++ rsvField w ++ immField w = w := by
  unfold opcField rsvField immField
  rw [BitVec.extractLsb'_append_extractLsb'_eq_extractLsb' (start₁ := 8) (len₁ := 16) rfl]
  exact BitVec.extractLsb'_append_extractLsb'

theorem eq_iff_fields {w v : Word} :
    w = v ↔ opcField w = opcField v ∧ rsvField w = rsvField v ∧ immField w = immField v := by
  refine ⟨fun h => by simp [h], fun ⟨ho, hr, hi⟩ => ?_⟩
  rw [← append_fields w, ho, hr, hi, append_fields]

@[simp] theorem opcField_and (w m : Word) : opcField (w &&& m) = opcField w &&& opcField m :=
  BitVec.extractLsb'_and

@[simp] theorem rsvField_and (w m : Word) : rsvField (w &&& m) = rsvField w &&& rsvField m :=
  BitVec.extractLsb'_and

@[simp] theorem immField_and (w m : Word) : immField (w &&& m) = immField w &&& immField m :=
  BitVec.extractLsb'_and

@[simp] theorem opcField_encode (i : Instr) : opcField (encode i) = i.opc := by
  unfold opcField encode
  rw [BitVec.extractLsb'_append_eq_of_le (by decide)]
  exact BitVec.extractLsb'_append_eq_left

/-! ### The decoder by the fields (R81) -/

theorem Instr.usesImm_eq_false_iff (i : Instr) : i.usesImm = false ↔ i.opc ≠ 0x11#8 := by
  cases i <;> simp [Instr.usesImm, Instr.opc]

/-- A command is selected by its own operation code only. -/
theorem opc_of_commandOf {opc : BitVec 8} {imm : Byte} {i : Instr} (h : commandOf opc imm = some i) : opc = i.opc := by
  unfold commandOf at h
  split at h <;> cases h <;> exact BitVec.eq_of_toNat_eq ‹_›

theorem decode_of_unknown {w : Word} (h : commandOf (opcField w) (immField w) = none) :
    decode w = .error .badOpcode := by
  simp [decode, h]

/-- With a known operation code the decoder asks for a legal `RSV` and `IMM8`. -/
theorem decode_of_commandOf {w : Word} {i : Instr} (h : commandOf (opcField w) (immField w) = some i) :
    decode w = if rsvField w ≠ 0#16 ∨ (immField w ≠ 0#8 ∧ opcField w ≠ 0x11#8) then .error .badField else .ok i := by
  simp only [decode, h, i.usesImm_eq_false_iff, ← opc_of_commandOf h]
  rfl

theorem decode_eq_ok_iff {w : Word} {i : Instr} :
    decode w = .ok i ↔ commandOf (opcField w) (immField w) = some i ∧ rsvField w = 0#16 ∧
      (immField w = 0#8 ∨ opcField w = 0x11#8) := by
  cases h : commandOf (opcField w) (immField w) with
  | none => simp [decode_of_unknown h]
  | some j =>
    rw [decode_of_commandOf h]
    split <;> grind

/-! ### The rows of the opcode map (R80) -/

/-- The masks and matches of R80 by fields: every mask covers `OPC` and `RSV`, and `IMM8` but in the row of `CRC.BYTE`;
every match has 0 outside `OPC`. -/
theorem opcodeTable_fields : ∀ r ∈ opcodeTable,
    opcField r.mask = 0xFF#8 ∧ rsvField r.mask = 0xFFFF#16 ∧
      immField r.mask = (if opcField r.pattern = 0x11#8 then 0#8 else 0xFF#8) ∧
      rsvField r.pattern = 0#16 ∧ immField r.pattern = 0#8 := by decide

theorem row_eq_of_opc_eq : ∀ r ∈ opcodeTable, ∀ q ∈ opcodeTable, opcField q.pattern = opcField r.pattern → q = r := by
  decide

theorem row_eq_of_mnemonic_eq : ∀ r ∈ opcodeTable, ∀ q ∈ opcodeTable, q.mnemonic = r.mnemonic → q = r := by decide

/-- A row is matched through `OPC` alone, by a word whose other fields are legal. -/
theorem matches_row_iff {w : Word} {r : OpcodeRow} (hr : r ∈ opcodeTable) :
    w &&& r.mask = r.pattern ↔ opcField w = opcField r.pattern ∧ rsvField w = 0#16 ∧
      (immField w = 0#8 ∨ opcField w = 0x11#8) := by
  obtain ⟨hom, hrm, him, hrp, hip⟩ := opcodeTable_fields r hr
  have hopc : opcField w &&& 0xFF#8 = opcField w := BitVec.and_allOnes
  have hrsv : rsvField w &&& 0xFFFF#16 = rsvField w := BitVec.and_allOnes
  have himm : immField w &&& 0xFF#8 = immField w := BitVec.and_allOnes
  rw [eq_iff_fields, opcField_and, rsvField_and, immField_and, hom, hrm, him, hrp, hip, hopc, hrsv]
  refine and_congr_right fun ho => and_congr_right fun _ => ?_
  rw [ho]
  split <;> simp [*]

theorem commandOf_row_mnemonic (imm : Byte) : ∀ r ∈ opcodeTable,
    (commandOf (opcField r.pattern) imm).map Instr.mnemonic = some r.mnemonic :=
  List.map_inj_left.mp rfl

/-- The operation code of a row selects a command of the row's mnemonic. -/
theorem exists_commandOf_row (imm : Byte) : ∀ r ∈ opcodeTable,
    ∃ i, commandOf (opcField r.pattern) imm = some i ∧ i.mnemonic = r.mnemonic := by
  intro r hr
  exact Option.map_eq_some_iff.mp (commandOf_row_mnemonic imm r hr)

/-- Every command has the row that Laws/PerInstr.lean finds for it. -/
theorem tableRow_statement (i : Instr) : Laws.TableRow.Statement i :=
  match i with
  | .nop => Laws.TableRow.nop
  | .sysReset => Laws.TableRow.sysReset
  | .crcInit => Laws.TableRow.crcInit
  | .crcByte b => Laws.TableRow.crcByte b
  | .crcTyp => Laws.TableRow.crcTyp
  | .crcPay => Laws.TableRow.crcPay
  | .crcFin => Laws.TableRow.crcFin
  | .crcVerify => Laws.TableRow.crcVerify
  | .typeStrict => Laws.TableRow.typeStrict
  | .typeRaw => Laws.TableRow.typeRaw
  | .recParse => Laws.TableRow.recParse
  | .recBuild => Laws.TableRow.recBuild
  | .recEmit => Laws.TableRow.recEmit
  | .sigCheck => Laws.TableRow.sigCheck
  | .sigEmit => Laws.TableRow.sigEmit

/-- A selected command has a row of its mnemonic, with the operation code that selects it. -/
theorem exists_row_of_commandOf {opc : BitVec 8} {imm : Byte} {i : Instr} (h : commandOf opc imm = some i) :
    ∃ r ∈ opcodeTable, r.mnemonic = i.mnemonic ∧ opc = opcField r.pattern := by
  obtain ⟨r, hr, hm, hw⟩ := tableRow_statement i
  obtain ⟨ho, -, -⟩ := (matches_row_iff hr).mp hw
  exact ⟨r, hr, hm, by rw [opc_of_commandOf h, ← ho, opcField_encode]⟩

end Sys2Proof

namespace Sys2Proof.Claims

open Sys2Proof.Machine

theorem knownOpcode_iff {w : Word} : KnownOpcode w ↔ ∃ i, commandOf (opcField w) (immField w) = some i := by
  constructor
  · rintro ⟨r, hr, ho⟩
    obtain ⟨i, hi, -⟩ := exists_commandOf_row (immField w) r hr
    exact ⟨i, ho ▸ hi⟩
  · rintro ⟨i, hi⟩
    obtain ⟨r, hr, -, ho⟩ := exists_row_of_commandOf hi
    exact ⟨r, hr, ho⟩

theorem runCommand_reportsOnly {w : Word} {e : IllegalWord} (s : State) (h : decode w = .error e) :
    ReportsOnly (illegalFailure e) (runCommand w s) s := by
  rw [runCommand, h]
  exact reportsOnly_fail s _

theorem runCommand_eq_exec {w : Word} {i : Instr} (s : State) (h : decode w = .ok i) : runCommand w s = exec i s := by
  rw [runCommand, h]

/-- Settles O2: both sides say that `OPC` is the row's and the other fields are legal. -/
theorem wordMatchesItsOpcodeRow : Obligations.WordMatchesItsOpcodeRow := by
  intro w r hr
  rw [matches_row_iff hr]
  constructor
  · rintro ⟨ho, hfields⟩
    obtain ⟨i, hi, hm⟩ := exists_commandOf_row (immField w) r hr
    exact ⟨i, decode_eq_ok_iff.mpr ⟨ho ▸ hi, hfields⟩, hm⟩
  · rintro ⟨i, hd, hm⟩
    obtain ⟨hi, hfields⟩ := decode_eq_ok_iff.mp hd
    obtain ⟨q, hq, hqm, ho⟩ := exists_row_of_commandOf hi
    obtain rfl := row_eq_of_mnemonic_eq r hr q hq (hqm.trans hm)
    exact ⟨ho, hfields⟩

/-- Settles O3: the clauses of the decoder by the fields; the row is the one whose match has the word's `OPC`. -/
theorem everyWordIsOneCommandOrIllegal : Obligations.EveryWordIsOneCommandOrIllegal := by
  intro w s
  refine ⟨fun hunknown => ?_, fun hknown hbad => ?_, fun hknown hrsv himm => ⟨?_, ?_⟩⟩
  · have hnone : commandOf (opcField w) (immField w) = none := by
      simpa [knownOpcode_iff, ← Option.eq_none_iff_forall_ne_some] using hunknown
    exact runCommand_reportsOnly s (decode_of_unknown hnone)
  · obtain ⟨i, hi⟩ := knownOpcode_iff.mp hknown
    exact runCommand_reportsOnly s ((decode_of_commandOf hi).trans (if_pos hbad))
  · obtain ⟨i, hi⟩ := knownOpcode_iff.mp hknown
    have hd : decode w = .ok i := decode_eq_ok_iff.mpr ⟨hi, hrsv, himm⟩
    exact ⟨i, hd, runCommand_eq_exec s hd⟩
  · obtain ⟨r, hr, ho⟩ := hknown
    refine ⟨r, hr, (matches_row_iff hr).mpr ⟨ho, hrsv, himm⟩, fun q hq hmatch => ?_⟩
    obtain ⟨hoq, -⟩ := (matches_row_iff hq).mp hmatch
    exact row_eq_of_opc_eq r hr q hq (hoq.symm.trans ho)

end Sys2Proof.Claims
end

section
/-! SUPPORT. The step of the checksum (R100) as a linear map, its table form (R103) and its one fixed point under a zero
byte (R107); what the writes of the CRC commands leave unchanged (R106 to R111). -/

namespace Sys2Proof.Machine

open Sys2Proof.Claims

/-! ### The step of the checksum (R100) -/

/-- The shift is linear: the bit that leaves chooses between 0 and the polynomial. -/
theorem crcShift_xor (x y : Word) : crcShift (x ^^^ y) = crcShift x ^^^ crcShift y := by
  simp only [crcShift, BitVec.getLsbD_xor, BitVec.ushiftRight_xor_distrib]
  cases x.getLsbD 0 <;> cases y.getLsbD 0
  case false.false => rfl
  case false.true => exact BitVec.xor_assoc ..
  case true.false =>
    change x >>> 1 ^^^ y >>> 1 ^^^ Config.crcPoly = x >>> 1 ^^^ Config.crcPoly ^^^ y >>> 1
    ac_rfl
  case true.true =>
    change x >>> 1 ^^^ y >>> 1 = x >>> 1 ^^^ Config.crcPoly ^^^ (y >>> 1 ^^^ Config.crcPoly)
    rw [BitVec.xor_comm (y >>> 1), BitVec.xor_assoc, ← BitVec.xor_assoc Config.crcPoly, BitVec.xor_self,
      BitVec.zero_xor]

theorem repeat_crcShift_xor (n : Nat) (x y : Word) :
    Nat.repeat crcShift n (x ^^^ y) = Nat.repeat crcShift n x ^^^ Nat.repeat crcShift n y := by
  induction n with
  | zero => rfl
  | succ n ih => simp only [Nat.repeat, ih, crcShift_xor]

/-- As long as only zero bits leave, shifting is all that happens. -/
theorem repeat_crcShift_of_low_zero (x : Word) (n : Nat) (h : ∀ i < n, x.getLsbD i = false) :
    Nat.repeat crcShift n x = x >>> n := by
  induction n with
  | zero => simp [Nat.repeat]
  | succ n ih =>
    rw [Nat.repeat, ih fun i hi => h i (by omega)]
    simp [crcShift, h n (by omega), BitVec.shiftRight_add]

theorem zeroExtend_byte_ushiftRight (b : Byte) : b.zeroExtend 32 >>> 8 = 0#32 := by
  refine BitVec.eq_of_getLsbD_eq fun i _ => ?_
  simp

/-- R103: the low byte leaves through the table, the other three are shifted. -/
theorem crcStep_eq_crcTable (a : Word) (b : Byte) :
    crcStep a b = crcTable ((a ^^^ b.zeroExtend 32).extractLsb' 0 8) ^^^ (a >>> 8) := by
  set x := a ^^^ b.zeroExtend 32 with hx
  set low : Word := (x.extractLsb' 0 8).zeroExtend 32 with hlow
  have hhigh : ∀ i < 8, (low ^^^ x).getLsbD i = false := by
    intro i hi
    simp [hlow, hi, show i < 32 by omega]
  have hshift : (low ^^^ x) >>> 8 = a >>> 8 := by
    simp only [hx, hlow, BitVec.ushiftRight_xor_distrib, zeroExtend_byte_ushiftRight, BitVec.zero_xor, BitVec.xor_zero]
  calc crcStep a b = Nat.repeat crcShift 8 (low ^^^ (low ^^^ x)) := by simp [crcStep, ← BitVec.xor_assoc, hx]
    _ = Nat.repeat crcShift 8 low ^^^ (a >>> 8) := by
      rw [repeat_crcShift_xor, repeat_crcShift_of_low_zero _ 8 hhigh, hshift]
    _ = crcTable (x.extractLsb' 0 8) ^^^ (a >>> 8) := by simp [crcTable, crcStep, hlow]

/-- The word with `a = t ^^^ (a >>> 8)`. -/
def byteUnfold (t : Word) : Word := t ^^^ t >>> 8 ^^^ t >>> 16 ^^^ t >>> 24

theorem eq_byteUnfold {a t : Word} (h : t ^^^ (a >>> 8) = a) : a = byteUnfold t := by
  have hstep : ∀ n, a >>> n = t >>> n ^^^ a >>> (8 + n) := fun n => by
    rw [BitVec.shiftRight_add, ← BitVec.ushiftRight_xor_distrib, h]
  have hgone : a >>> 32 = 0#32 := BitVec.ushiftRight_eq_zero (Nat.le_refl 32)
  calc a = t ^^^ a >>> 8 := h.symm
    _ = t ^^^ (t >>> 8 ^^^ (t >>> 16 ^^^ (t >>> 24 ^^^ a >>> 32))) := by rw [hstep 8, hstep 16, hstep 24]
    _ = byteUnfold t := by simp [byteUnfold, hgone, BitVec.xor_assoc]

/-- No entry of the table but the first gives back its own index. -/
theorem eq_zero_of_byteUnfold_crcTable : ∀ i : Byte, (byteUnfold (crcTable i)).extractLsb' 0 8 = i → i = 0#8 := by
  decide +kernel

/-- R107: a zero byte changes every accumulator but 0. A fixed point is the unfolding of the table entry of its own low
byte, and only entry 0 allows that. -/
theorem crcStep_zero_eq_self_iff (a : Word) : crcStep a 0#8 = a ↔ a = 0#32 := by
  constructor
  · intro h
    have ha : a = byteUnfold (crcTable (a.extractLsb' 0 8)) := eq_byteUnfold (by simpa [crcStep_eq_crcTable] using h)
    have hlow : a.extractLsb' 0 8 = 0#8 := eq_zero_of_byteUnfold_crcTable _ (by rw [← ha])
    rw [ha, hlow]
    rfl
  · rintro rfl
    rfl

/-! ### The bytes the CRC commands fold -/

theorem Memory.slice_eq_map_range (m : Memory) (n : Nat) : m.slice 0 n = (List.range n).map m.read := by
  refine List.ext_getElem (by simp) fun i hi _ => ?_
  simp [Memory.getElem_slice m 0 n i hi]

theorem State.payload_eq_payBytes (s : State) : s.payload = payBytes s s.payLen.toNat :=
  s.payMem.slice_eq_map_range _

theorem State.heldPayload_eq_payBytes (s : State) : s.heldPayload = payBytes s s.len.toNat :=
  s.payMem.slice_eq_map_range _

/-! ### What the writes of the CRC commands leave unchanged -/

/-- Below bit 8 `STATUS` is the error report (R22). -/
theorem State.status_getLsbD_report (s : State) {k : Nat} (h : k < 8) :
    s.status.getLsbD k = (s.cause ++ s.err).getLsbD k := by
  have hcause : k - 4 < 4 := by omega
  simp only [State.status, BitVec.getLsbD_append, hcause, if_true]

/-- The bits of `STATUS` that are unchanged, told by its fields (R22). -/
theorem statusKept_of_flags {b : List Nat} {s t : State} (he : t.err = s.err) (hc : t.cause = s.cause)
    (hf : ∀ k, k + 8 ∉ b → t.statusFlags.getD k false = s.statusFlags.getD k false) : StatusKept b s t := by
  intro k hk
  rcases Nat.lt_or_ge k 8 with h | h
  · rw [t.status_getLsbD_report h, s.status_getLsbD_report h, he, hc]
  · obtain ⟨j, rfl⟩ := Nat.exists_eq_add_of_le' h
    rw [t.status_getLsbD_eq_flag, s.status_getLsbD_eq_flag, hf j hk]

/-- `ACC` is register 8 and no part of `STATUS` (R16). -/
theorem State.setAcc_frame (s : State) (v : Word) : Frame [8] [] s (s.setAcc v) where
  regs
    | 8, h => absurd (by decide) h
    | 0, _ | 1, _ | 2, _ | 3, _ | 4, _ | 5, _ | 6, _ | 7, _ | 9, _ | 10, _ | 11, _ | 12, _ => rfl
    | _ + 13, _ => rfl
  status _ _ := rfl
  inBytes _ := rfl
  payBytes _ := rfl
  out := rfl
  host := ⟨rfl, rfl⟩

/-- `CCRC` is register 7 and no part of `STATUS` (R15). -/
theorem State.setCcrc_frame (s : State) (v : Word) : Frame [7] [] s (s.setCcrc v) where
  regs
    | 7, h => absurd (by decide) h
    | 0, _ | 1, _ | 2, _ | 3, _ | 4, _ | 5, _ | 6, _ | 8, _ | 9, _ | 10, _ | 11, _ | 12, _ => rfl
    | _ + 13, _ => rfl
  status _ _ := rfl
  inBytes _ := rfl
  payBytes _ := rfl
  out := rfl
  host := ⟨rfl, rfl⟩

/-- `CRCOK` is bit 11 of `STATUS` and in no other register (R22). -/
theorem State.setCrcok_frame (s : State) (b : Bool) : Frame [] [11] s (s.setCrcok b) where
  regs
    | 1, h => absurd (by decide) h
    | 0, _ | 2, _ | 3, _ | 4, _ | 5, _ | 6, _ | 7, _ | 8, _ | 9, _ | 10, _ | 11, _ | 12, _ => rfl
    | _ + 13, _ => rfl
  status := statusKept_of_flags rfl rfl fun
    | 3, h => absurd (by decide) h
    | 0, _ | 1, _ | 2, _ => rfl
    | _ + 4, _ => rfl
  inBytes _ := rfl
  payBytes _ := rfl
  out := rfl
  host := ⟨rfl, rfl⟩

/-- A command that writes within a frame and then commits keeps the frame but for the error report. -/
theorem Frame.commit {w b : List Nat} {s t : State} (h : Frame w b s t) : Frame w (b ++ reportBits) s t.commit :=
  (h.mono (fun _ => id) fun _ => List.mem_append_left _).trans
    (t.commit_frame.mono (by simp) fun _ => List.mem_append_right _)

/-- What `CRC.INIT`, `CRC.BYTE`, `CRC.TYP` and `CRC.PAY` have in common: `ACC` is written, and the command commits. -/
theorem State.setAcc_commit_keeps (s : State) (v : Word) :
    Cleared (s.setAcc v).commit ∧ Frame [8] reportBits s (s.setAcc v).commit :=
  ⟨State.commit_cleared _, (s.setAcc_frame v).commit⟩

theorem State.runCrc_frame (s : State) (a : Word) : Frame [7, 8] [] s (s.runCrc a) :=
  ((s.setAcc_frame a).mono (by simp) (by simp)).trans (((s.setAcc a).setCcrc_frame _).mono (by simp) (by simp))

/-! ### `CRC.VERIFY` with and without a held record (R111) -/

/-- The accumulator over the held record's type bytes and payload (R105). -/
def State.heldAcc (s : State) : Word := crcAcc Config.crcInit (s.typeBytes ++ s.heldPayload)

theorem State.heldAcc_eq (s : State) :
    s.heldAcc = crcAcc 0xFFFFFFFF#32 (bytesBe32 s.typ ++ payBytes s s.len.toNat) := by
  rw [State.heldAcc, s.heldPayload_eq_payBytes, State.typeBytes, Config.crcInit]

theorem State.setCrcok_runCrc_frame (s : State) (a : Word) (b : Bool) :
    Frame [7, 8] [11] s ((s.runCrc a).setCrcok b) :=
  ((s.runCrc_frame a).mono (fun _ => id) (by simp)).trans
    (((s.runCrc a).setCrcok_frame b).mono (by simp) fun _ => id)

theorem exec_crcVerify_of_held {s : State} (h : s.held = true) :
    exec .crcVerify s =
      .next ((s.runCrc s.heldAcc).setCrcok (decide (s.crc = s.heldAcc ^^^ Config.crcXorOut))).commit :=
  if_pos h

theorem exec_crcVerify_of_not_held {s : State} (h : s.held = false) :
    exec .crcVerify s = .next (s.fail .badState) :=
  if_neg (by simp [h])

end Sys2Proof.Machine

namespace Sys2Proof.Claims

open Sys2Proof.Machine

/-- Settles O13: the effect and the frame of one write to `ACC`, the illegal field of R81, and the fixed point of the
step. -/
theorem crcByteStepsTheAccumulator : Obligations.CrcByteStepsTheAccumulator := by
  refine ⟨fun b s => ⟨_, rfl, rfl, s.setAcc_commit_keeps _⟩, fun w s hopc hrsv => ?_,
    crcStep_zero_eq_self_iff, by decide, by decide⟩
  have hknown : KnownOpcode w := knownOpcode_iff.mpr ⟨.crcByte (immField w), by rw [hopc]; rfl⟩
  obtain ⟨-, hbad, -⟩ := everyWordIsOneCommandOrIllegal w s
  exact hbad hknown (.inl hrsv)

/-- Settles O12: each command writes `ACC` and commits; `CRC.PAY` folds the payload read byte by byte. -/
theorem crcCommandsWriteTheAccumulatorOnly : Obligations.CrcCommandsWriteTheAccumulatorOnly := by
  refine fun s => ⟨⟨_, rfl, rfl, s.setAcc_commit_keeps _⟩, ⟨_, rfl, rfl, s.setAcc_commit_keeps _⟩,
    ⟨_, rfl, ?_, s.setAcc_commit_keeps _⟩⟩
  rw [State.commit_acc, State.setAcc_acc, s.payload_eq_payBytes]

/-- Settles O14: one write to `CCRC`, then the commit. -/
theorem crcFinWritesTheComplement : Obligations.CrcFinWritesTheComplement :=
  fun s => ⟨_, rfl, rfl, State.commit_cleared _, (s.setCcrc_frame _).commit⟩

/-- Settles O15: the engine's run, the comparison of `CRC` with it, and the commit, or the failure without a record. -/
theorem crcVerifyReportsTheComparison : Obligations.CrcVerifyReportsTheComparison := by
  refine fun s => ⟨fun hheld => ⟨_, exec_crcVerify_of_held hheld, ?acc, ?ccrc, ?crcok,
    State.commit_cleared _, ?frame⟩, fun hheld => ?none⟩
  case acc => simp [s.heldAcc_eq]
  case ccrc => simp [Config.crcXorOut]
  case crcok => simp
  case frame => exact (s.setCrcok_runCrc_frame s.heldAcc _).commit
  case none =>
    rw [FailsWith, exec_crcVerify_of_not_held hheld]
    exact reportsOnly_fail s _

/-- Settles O19: the definition of the checksum (R102), and its value on two fixed sequences. -/
theorem checksumHasTheCheckValue : Obligations.ChecksumHasTheCheckValue :=
  ⟨fun s => (crc32_eq s).symm, by decide, by decide +kernel⟩

end Sys2Proof.Claims
end

section
/-! SUPPORT. What `TYPE.STRICT` and `TYPE.RAW` answer (R125, R126): the letter test, the reserved-bit rule of the first, and
the state that both leave when they take the code. -/

namespace Sys2Proof.Machine

open Sys2Proof.Claims

/-! ### The tests on a type code -/

theorem letters_eq_false_iff (v : Word) : letters (bytesBe32 v) = false ↔ ¬ AllLetters v := by
  rw [← letters_iff_allLetters, Bool.not_eq_true]

theorem letters_ne_false {v : Word} (h : AllLetters v) : letters (bytesBe32 v) ≠ false :=
  fun hf => (letters_eq_false_iff v).mp hf h

theorem rsvOk_eq_false_iff (v : Word) : rsvOk v = false ↔ v.getLsbD 13 = true := by
  rw [rsvOk_eq_bit, Bool.not_eq_false']

/-- R123: with four letters a type code is valid iff its reserved bit is clear. -/
theorem isValid_of_allLetters {v : Word} (h : AllLetters v) : isValid v = !v.getLsbD 13 := by
  rw [isValid, (letters_iff_allLetters v).mpr h, Bool.true_and, rsvOk_eq_bit]

/-! ### What the two writes leave unchanged -/

/-- `TYP` is register 4, the class flags follow it (R24), and `TOK` is bit 9 of `STATUS` (R22). -/
theorem State.holdTypeCode_frame (s : State) (v : Word) : Frame [4] [9, 12, 13, 14, 15, 16] s (s.holdTypeCode v) where
  regs
    | 1, h | 4, h => absurd (by decide) h
    | 0, _ | 2, _ | 3, _ | 5, _ | 6, _ | 7, _ | 8, _ | 9, _ | 10, _ | 11, _ | 12, _ => rfl
    | _ + 13, _ => rfl
  status := statusKept_of_flags rfl rfl fun
    | 1, h | 4, h | 5, h | 6, h | 7, h | 8, h => absurd (by decide) h
    | 0, _ | 2, _ | 3, _ => rfl
    | _ + 9, _ => rfl
  inBytes _ := rfl
  payBytes _ := rfl
  out := rfl
  host := ⟨rfl, rfl⟩

/-- `REC`, `CSRC` and `CRCOK` are bits 8, 10 and 11 of `STATUS` and in no other register (R22). -/
theorem State.dropRecord_frame (s : State) : Frame [] [8, 10, 11] s s.dropRecord where
  regs
    | 1, h => absurd (by decide) h
    | 0, _ | 2, _ | 3, _ | 4, _ | 5, _ | 6, _ | 7, _ | 8, _ | 9, _ | 10, _ | 11, _ | 12, _ => rfl
    | _ + 13, _ => rfl
  status := statusKept_of_flags rfl rfl fun
    | 0, h | 2, h | 3, h => absurd (by decide) h
    | 1, _ => rfl
    | _ + 4, _ => rfl
  inBytes _ := rfl
  payBytes _ := rfl
  out := rfl
  host := ⟨rfl, rfl⟩

/-! ### Taking the code in `TIN` -/

/-- What both commands leave when they take the code: `TYP` is `TIN`, no record is held, and the report is cleared. -/
def State.takeTypeCode (s : State) : State := (s.holdTypeCode s.tin).dropRecord.commit

section TakeTypeCode

variable (s : State)

@[simp] theorem State.takeTypeCode_typ : s.takeTypeCode.typ = s.tin := rfl
@[simp] theorem State.takeTypeCode_tin : s.takeTypeCode.tin = s.tin := rfl
@[simp] theorem State.takeTypeCode_tok : s.takeTypeCode.tok = true := rfl
@[simp] theorem State.takeTypeCode_held : s.takeTypeCode.held = false := rfl
@[simp] theorem State.takeTypeCode_csrc : s.takeTypeCode.csrc = false := rfl
@[simp] theorem State.takeTypeCode_crcok : s.takeTypeCode.crcok = false := rfl

@[simp] theorem State.takeTypeCode_takeTypeCode : s.takeTypeCode.takeTypeCode = s.takeTypeCode := rfl

theorem State.takeTypeCode_cleared : Cleared s.takeTypeCode := State.commit_cleared _

theorem State.takeTypeCode_frame : Frame [4] allBits s s.takeTypeCode := by
  have hhold : Frame [4] allBits s (s.holdTypeCode s.tin) := (s.holdTypeCode_frame s.tin).mono (by simp) (by decide)
  have hdrop : Frame [4] allBits (s.holdTypeCode s.tin) (s.holdTypeCode s.tin).dropRecord :=
    (State.dropRecord_frame _).mono (by simp) (by decide)
  exact (hhold.trans hdrop).commit.mono (by simp) (by decide)

theorem State.takeTypeCode_rsvOk : s.takeTypeCode.status.getLsbD 14 = !s.tin.getLsbD 13 := by
  rw [State.status_rsvOk, State.takeTypeCode_typ, rsvOk_eq_bit]

variable {s}

theorem State.takeTypeCode_tvalid (h : AllLetters s.tin) : s.takeTypeCode.status.getLsbD 16 = !s.tin.getLsbD 13 := by
  rw [State.status_isValid, State.takeTypeCode_typ, isValid_of_allLetters h]

end TakeTypeCode

/-! ### The commands by their tests (R125, R126) -/

section Commands

variable {s : State}

theorem exec_typeStrict_of_valid (hl : AllLetters s.tin) (hr : s.tin.getLsbD 13 = false) :
    exec .typeStrict s = .next s.takeTypeCode :=
  (if_neg (letters_ne_false hl)).trans (if_neg (by rw [rsvOk_eq_bit, hr]; decide))

theorem exec_typeStrict_of_not_letters (h : ¬ AllLetters s.tin) :
    exec .typeStrict s = .next (s.fail .invalidTypeByte) :=
  if_pos ((letters_eq_false_iff _).mpr h)

theorem exec_typeStrict_of_reserved (hl : AllLetters s.tin) (hr : s.tin.getLsbD 13 = true) :
    exec .typeStrict s = .next (s.fail .reservedBitSet) :=
  (if_neg (letters_ne_false hl)).trans (if_pos ((rsvOk_eq_false_iff _).mpr hr))

theorem exec_typeRaw_of_letters (h : AllLetters s.tin) : exec .typeRaw s = .next s.takeTypeCode :=
  if_neg (letters_ne_false h)

theorem exec_typeRaw_of_not_letters (h : ¬ AllLetters s.tin) :
    exec .typeRaw s = .next (s.fail .invalidTypeByte) :=
  if_pos ((letters_eq_false_iff _).mpr h)

end Commands

end Sys2Proof.Machine

namespace Sys2Proof.Claims

open Sys2Proof.Machine

theorem failsWith_of_exec_eq {f : Failure} {i : Instr} {s : State} (h : exec i s = .next (s.fail f)) :
    FailsWith f i s := by
  rw [FailsWith, h]
  exact reportsOnly_fail s f

/-- Settles O21: the two tests in the order of R125. The code taken passes both again, and taking it twice is taking it
once. -/
theorem typeStrictTakesValidCodes : Obligations.TypeStrictTakesValidCodes := by
  refine fun s => ⟨fun hl hr => ⟨s.takeTypeCode, exec_typeStrict_of_valid hl hr, s.takeTypeCode_typ,
    s.takeTypeCode_tok, s.takeTypeCode_held, s.takeTypeCode_csrc, s.takeTypeCode_crcok,
    ?tvalid, s.takeTypeCode_cleared, s.takeTypeCode_frame, ?again⟩,
    fun hl => failsWith_of_exec_eq (exec_typeStrict_of_not_letters hl),
    fun hl hr => failsWith_of_exec_eq (exec_typeStrict_of_reserved hl hr)⟩
  case tvalid => rw [State.takeTypeCode_tvalid hl, hr, Bool.not_false]
  case again =>
    rw [← s.takeTypeCode_tin] at hl hr
    rw [exec_typeStrict_of_valid hl hr, State.takeTypeCode_takeTypeCode]

/-- Settles O22: the letter test alone decides, and the flags show the reserved bit of the code taken. -/
theorem typeRawTakesLetterCodes : Obligations.TypeRawTakesLetterCodes :=
  fun s => ⟨fun hl => ⟨s.takeTypeCode, exec_typeRaw_of_letters hl, s.takeTypeCode_typ,
    s.takeTypeCode_tok, s.takeTypeCode_held, s.takeTypeCode_csrc, s.takeTypeCode_crcok,
    s.takeTypeCode_rsvOk, State.takeTypeCode_tvalid hl, s.takeTypeCode_cleared, s.takeTypeCode_frame⟩,
    fun hl => failsWith_of_exec_eq (exec_typeRaw_of_not_letters hl)⟩

end Sys2Proof.Claims
end

section
/-! SUPPORT. The record framer: the record at `RP` byte by byte and what `REC.PARSE` finds of it (R141), the record that
`REC.BUILD` holds (R143), and the bytes that `REC.EMIT` appends (R144). -/

namespace Sys2Proof.Machine

open Sys2Proof.Claims

/-! ### The fields of the record at `RP` (R74) -/

theorem bigEndian_lt (a b c d : Byte) : bigEndian a b c d < 2 ^ 32 := by
  simp only [bigEndian]
  omega

theorem toNat_append_byte {n : Nat} (x : BitVec n) (b : Byte) : (x ++ b).toNat = x.toNat * 2 ^ 8 + b.toNat := by
  rw [BitVec.toNat_append, ← Nat.shiftLeft_add_eq_or_of_lt b.isLt, Nat.shiftLeft_eq]

theorem be32_eq_bigEndian (a b c d : Byte) : be32 [a, b, c, d] = BitVec.ofNat 32 (bigEndian a b c d) := by
  refine BitVec.eq_of_toNat_eq ?_
  rw [BitVec.toNat_ofNat, Nat.mod_eq_of_lt (bigEndian_lt a b c d), be32, bigEndian]
  simp only [toNat_append_byte]
  omega

theorem letters_iff_forall (l : List Byte) : letters l = true ↔ ∀ b ∈ l, AsciiLetter b := by
  simp [letters, isLetter_iff]

theorem recLen_lt (s : State) : recLen s < 2 ^ 32 := bigEndian_lt ..

theorem recStored_lt (s : State) : recStored s < 2 ^ 32 := bigEndian_lt ..

theorem toNat_ofNat_recLen (s : State) : (BitVec.ofNat 32 (recLen s)).toNat = recLen s := by
  rw [BitVec.toNat_ofNat, Nat.mod_eq_of_lt (recLen_lt s)]

theorem ofNat_recStored_eq_iff (s : State) (v : Word) :
    BitVec.ofNat 32 (recStored s) = v ↔ recStored s = v.toNat := by
  rw [← BitVec.toNat_inj, BitVec.toNat_ofNat, Nat.mod_eq_of_lt (recStored_lt s)]

@[simp] theorem recPayload_length (s : State) : (recPayload s).length = recLen s := by simp [recPayload]

@[simp] theorem State.remaining_length (s : State) : s.remaining.length = avail s := Memory.slice_length ..

/-- A field of the input not yet consumed is the record's bytes there. -/
theorem State.field_remaining {s : State} {o n : Nat} (h : o + n ≤ avail s) :
    field s.remaining o n = (List.range n).map fun k => recByte s (o + k) := by
  rw [State.remaining, ← avail, Memory.field_slice _ _ _ _ _ h]
  refine List.ext_getElem (by simp) fun i hi _ => ?_
  simp [Memory.getElem_slice _ _ _ i hi, recByte, Nat.add_assoc]

theorem State.be32_field_remaining {s : State} {o : Nat} (h : o + 4 ≤ avail s) :
    be32 (field s.remaining o 4) = BitVec.ofNat 32
      (bigEndian (recByte s o) (recByte s (o + 1)) (recByte s (o + 2)) (recByte s (o + 3))) := by
  rw [State.field_remaining h]
  exact be32_eq_bigEndian ..

theorem State.be32_remaining_recLen {s : State} (h : 8 ≤ avail s) :
    be32 (field s.remaining 0 4) = BitVec.ofNat 32 (recLen s) :=
  State.be32_field_remaining (by omega)

theorem State.remaining_recType {s : State} (h : 8 ≤ avail s) : field s.remaining 4 4 = recType s :=
  State.field_remaining h

theorem State.remaining_recPayload {s : State} (h : 8 + recLen s ≤ avail s) :
    field s.remaining 8 (recLen s) = recPayload s :=
  State.field_remaining h

theorem State.be32_remaining_recStored {s : State} (h : 12 + recLen s ≤ avail s) :
    be32 (field s.remaining (8 + recLen s) 4) = BitVec.ofNat 32 (recStored s) := by
  rw [State.be32_field_remaining (by omega), recStored]
  simp only [Nat.add_right_comm 8 (recLen s), Nat.reduceAdd]

/-! ### What a parse of the record at `RP` finds (R141) -/

/-- The accumulator over the type bytes and the payload of the record at `RP` (R105). -/
def recAcc (s : State) : Word := crcAcc Config.crcInit (recType s ++ recPayload s)

/-- The record at `RP`, taken with the checksum `sum`, `used` bytes long. -/
def State.foundRecord (s : State) (used : Nat) (sum : Word) (src : Bool) : Parsed :=
  ⟨BitVec.ofNat 32 (recLen s), be32 (recType s), recPayload s, sum, recAcc s, src, used⟩

section Parse

variable {s : State}

theorem parseRecord_of_short (h : avail s < 8) : parseRecord s.strict s.remaining = .error .shortHeader := by
  simp [parseRecord, h]

theorem parseRecord_of_not_letters (h8 : 8 ≤ avail s) (hl : ¬ recLetters s) :
    parseRecord s.strict s.remaining = .error .invalidTypeCode := by
  have hfail : letters (recType s) = false := by rwa [← Bool.not_eq_true, letters_iff_forall]
  simp [parseRecord, State.remaining_recType h8, hfail, h8]

theorem parseRecord_of_truncated (h8 : 8 ≤ avail s) (hl : recLetters s) (h : avail s < 8 + recLen s) :
    parseRecord s.strict s.remaining = .error .truncatedPayload := by
  have hpass : letters (recType s) = true := (letters_iff_forall _).mpr hl
  have hlen : avail s - 8 < recLen s := by omega
  simp only [parseRecord, State.remaining_length, State.remaining_recType h8, State.be32_remaining_recLen h8,
    toNat_ofNat_recLen, hpass, hlen, Nat.not_lt.mpr h8, Bool.true_eq_false, if_false, if_true]

/-- With the payload there, the bytes after it decide (steps 5 to 7). -/
theorem parseRecord_of_payload (hl : recLetters s) (h : 8 + recLen s ≤ avail s) :
    parseRecord s.strict s.remaining =
      if 12 + recLen s ≤ avail s then
        if s.strict = true ∧ BitVec.ofNat 32 (recStored s) ≠ recComputed s then .error .checksumMismatch
        else .ok (s.foundRecord (12 + recLen s) (BitVec.ofNat 32 (recStored s)) true)
      else if 8 + recLen s = avail s then .ok (s.foundRecord (8 + recLen s) (recComputed s) false)
      else .error .partialChecksum := by
  have h8 : 8 ≤ avail s := by omega
  have hpass : letters (recType s) = true := (letters_iff_forall _).mpr hl
  have hlen : ¬ avail s - 8 < recLen s := by omega
  have hfour : 4 ≤ avail s - 8 - recLen s ↔ 12 + recLen s ≤ avail s := by omega
  have hnone : avail s - 8 - recLen s = 0 ↔ 8 + recLen s = avail s := by omega
  simp only [parseRecord, State.remaining_length, State.remaining_recType h8, State.be32_remaining_recLen h8,
    toNat_ofNat_recLen, State.remaining_recPayload h, hpass, hlen, hfour, hnone, Nat.not_lt.mpr h8, if_false,
    Bool.true_eq_false, State.foundRecord]
  split
  case isTrue hsum =>
    rw [State.be32_remaining_recStored hsum]
    rfl
  case isFalse => rfl

theorem exec_recParse_of_error {f : Failure} (h : parseRecord s.strict s.remaining = .error f) :
    exec .recParse s = .next (s.fail f) := by
  simp only [exec, execRecParse, h]

theorem exec_recParse_of_ok {r : Parsed} (h : parseRecord s.strict s.remaining = .ok r) :
    exec .recParse s = .next (s.commitParse r) := by
  simp only [exec, execRecParse, h]

end Parse

/-! ### What a successful parse leaves (R141 step 8) -/

theorem State.commitParse_rp (s : State) (r : Parsed) : (s.commitParse r).rp = s.rp + BitVec.ofNat 32 r.used := rfl

theorem State.commitParse_payMem (s : State) (r : Parsed) :
    (s.commitParse r).payMem = s.payMem.writeBytes 0 r.pay := rfl

theorem State.commitParse_regs (s : State) (r : Parsed) : RegsKept [1, 4, 5, 6, 7, 8, 9, 11] s (s.commitParse r)
  | 1, h | 4, h | 5, h | 6, h | 7, h | 8, h | 9, h | 11, h => absurd (by decide) h
  | 0, _ | 2, _ | 3, _ | 10, _ | 12, _ => rfl
  | _ + 13, _ => rfl

theorem mem_allBits : ∀ k < 17, k ∈ allBits := by decide

/-- Beyond the defined bits of `STATUS` nothing can change (R22). -/
theorem statusKept_allBits (s t : State) : StatusKept allBits s t := by
  intro k hk
  have h17 : 17 ≤ k := Nat.not_lt.mp (mt (mem_allBits k) hk)
  rw [t.status_reserved h17, s.status_reserved h17]

/-- The rule's writes, for a record that ends within the input. -/
theorem State.commitParse_effect {s : State} {used : Nat} (sum : Word) (src : Bool) (hpay : Memory.wf s.payMem)
    (hused : used ≤ avail s) :
    ParseEffect used sum src s (s.commitParse (s.foundRecord used sum src)) where
  len := toNat_ofNat_recLen s
  typ := bytesBe32_be32 _ (by simp [recType])
  payLen := congrArg (BitVec.ofNat 32) (recPayload_length s)
  pay k hk := by
    have hread := Memory.read_writeBytes_of_mem (recPayload s) s.payMem 0 k hpay (by rwa [recPayload_length])
    rw [Nat.zero_add] at hread
    rw [State.commitParse_payMem]
    exact hread.trans (by simp [recPayload])
  payRest a ha := Memory.read_writeBytes_of_not_mem (recPayload s) s.payMem 0 a hpay
    (.inr (by rwa [recPayload_length, Nat.zero_add]))
  crc := rfl
  ccrc := rfl
  acc := rfl
  rp := by
    have hend : s.rp.toNat + used < 2 ^ 32 := by
      have hinLen := s.inLen.isLt
      have hrp := s.rp.isLt
      simp only [avail] at hused
      omega
    rw [State.commitParse_rp, State.foundRecord, BitVec.toNat_add, BitVec.toNat_ofNat, Nat.add_mod_mod,
      Nat.mod_eq_of_lt hend]
  held := rfl
  tok := rfl
  csrc := rfl
  crcok := decide_eq_true_iff
  cleared := State.commit_cleared _
  regs := s.commitParse_regs _
  status := statusKept_allBits _ _
  inBytes _ := rfl
  out := rfl
  host := ⟨rfl, rfl⟩

/-! ### The record that `REC.BUILD` holds (R143) -/

/-- `LEN` and `CRC` are registers 5 and 6; `REC`, `CSRC` and `CRCOK` are bits 8, 10 and 11 of `STATUS` (R22). -/
theorem State.holdRecord_frame (s : State) (l c : Word) (src ok : Bool) :
    Frame [5, 6] [8, 10, 11] s (s.holdRecord l c src ok) where
  regs
    | 1, h | 5, h | 6, h => absurd (by decide) h
    | 0, _ | 2, _ | 3, _ | 4, _ | 7, _ | 8, _ | 9, _ | 10, _ | 11, _ | 12, _ => rfl
    | _ + 13, _ => rfl
  status := statusKept_of_flags rfl rfl fun
    | 0, h | 2, h | 3, h => absurd (by decide) h
    | 1, _ => rfl
    | _ + 4, _ => rfl
  inBytes _ := rfl
  payBytes _ := rfl
  out := rfl
  host := ⟨rfl, rfl⟩

/-- The accumulator over `TYPBYTES` and the valid payload (R105). -/
def State.buildAcc (s : State) : Word := crcAcc Config.crcInit (s.typeBytes ++ s.payload)

theorem State.buildAcc_eq (s : State) :
    s.buildAcc = crcAcc 0xFFFFFFFF#32 (bytesBe32 s.typ ++ payBytes s s.payLen.toNat) := by
  rw [State.buildAcc, s.payload_eq_payBytes, State.typeBytes, Config.crcInit]

/-- What `REC.BUILD` leaves when a type code is held. -/
def State.buildRecord (s : State) : State :=
  ((s.runCrc s.buildAcc).holdRecord s.payLen (s.buildAcc ^^^ Config.crcXorOut) false true).commit

theorem State.buildRecord_frame (s : State) : Frame [5, 6, 7, 8] (8 :: 10 :: 11 :: reportBits) s s.buildRecord := by
  have hrun : Frame [5, 6, 7, 8] [8, 10, 11] s (s.runCrc s.buildAcc) := (s.runCrc_frame _).mono (by simp) (by simp)
  exact (hrun.trans ((State.holdRecord_frame _ ..).mono (by simp) fun _ => id)).commit

/-- Neither `TYP` nor `PAY` is written, so that building again finds the same. -/
theorem State.buildRecord_buildRecord (s : State) : s.buildRecord.buildRecord = s.buildRecord := rfl

theorem State.buildRecord_crc (s : State) :
    s.buildRecord.crc = crc32 (bytesBe32 s.typ ++ payBytes s s.payLen.toNat) := by
  rw [← s.payload_eq_payBytes]
  rfl

theorem exec_recBuild_of_tok {s : State} (h : s.tok = true) : exec .recBuild s = .next s.buildRecord := if_pos h

theorem exec_recBuild_of_not_tok {s : State} (h : s.tok = false) : exec .recBuild s = .next (s.fail .badState) :=
  if_neg (by simp [h])

/-! ### The bytes that `REC.EMIT` appends (R144) -/

theorem State.recordBytes_eq (s : State) : s.recordBytes =
    bytesBe32 s.len ++ bytesBe32 s.typ ++ payBytes s s.len.toNat ++ bytesBe32 s.crc := by
  rw [State.recordBytes, s.heldPayload_eq_payBytes, State.typeBytes]

theorem State.recordBytes_length (s : State) : s.recordBytes.length = 12 + s.len.toNat := by
  simp only [s.recordBytes_eq, payBytes, List.length_append, bytesBe32_length, List.length_map, List.length_range]
  omega

/-- What a command that appends to `OUT` and commits leaves unchanged: all but `OUT` and the error report. -/
theorem State.emit_commit_keeps (s : State) (b : List Byte) :
    Cleared (s.emit b).commit ∧ RegsKept [1] s (s.emit b).commit ∧ StatusKept reportBits s (s.emit b).commit ∧
      InKept s (s.emit b).commit ∧ PayKept s (s.emit b).commit ∧ HostKept s (s.emit b).commit :=
  ⟨State.commit_cleared _, (s.emit b).commit_frame.regs, (s.emit b).commit_frame.status, fun _ => rfl, fun _ => rfl,
    rfl, rfl⟩

theorem exec_recEmit_of_held {s : State} (h : s.held = true) :
    exec .recEmit s = .next (s.emit s.recordBytes).commit := if_pos h

theorem exec_recEmit_of_not_held {s : State} (h : s.held = false) : exec .recEmit s = .next (s.fail .badState) :=
  if_neg (by simp [h])

end Sys2Proof.Machine

namespace Sys2Proof.Claims

open Sys2Proof.Machine

/-- Settles O25: the fields of the record at `RP` are read off the input, the tests of R141 are made in its order, and a
record taken is committed as step 8 says. -/
theorem parseTakesOrRejectsOneRecord : Obligations.ParseTakesOrRejectsOneRecord := by
  refine fun s => ⟨fun hpay hsum hl hstrict => ?stored, fun hpay hend hl => ?missing,
    fun hshort => failsWith_of_exec_eq (exec_recParse_of_error (parseRecord_of_short hshort)),
    fun h8 hl => failsWith_of_exec_eq (exec_recParse_of_error (parseRecord_of_not_letters h8 hl)),
    fun h8 hl hlen => failsWith_of_exec_eq (exec_recParse_of_error (parseRecord_of_truncated h8 hl hlen)),
    fun hl hsum hstrict hne => failsWith_of_exec_eq (exec_recParse_of_error ?mismatch),
    fun hl hlow hhigh => failsWith_of_exec_eq (exec_recParse_of_error ?partialSum)⟩
  case stored =>
    refine ⟨_, exec_recParse_of_ok ?_, State.commitParse_effect _ _ hpay hsum⟩
    rw [parseRecord_of_payload hl (by omega), if_pos hsum, if_neg]
    exact fun ⟨hs, hne⟩ => hne ((ofNat_recStored_eq_iff s _).mpr (hstrict hs))
  case missing =>
    refine ⟨_, exec_recParse_of_ok ?_, State.commitParse_effect _ _ hpay hend.le⟩
    rw [parseRecord_of_payload hl hend.le, if_neg (by omega), if_pos hend]
  case mismatch => rw [parseRecord_of_payload hl (by omega), if_pos hsum,
    if_pos ⟨hstrict, mt (ofNat_recStored_eq_iff s _).mp hne⟩]
  case partialSum => rw [parseRecord_of_payload hl (by omega), if_neg (by omega), if_neg (by omega)]

/-- Settles O26: the engine's run and the held record, which the second run finds unchanged. -/
theorem buildHoldsTheComputedRecord : Obligations.BuildHoldsTheComputedRecord := by
  refine fun s => ⟨fun htok => ⟨s.buildRecord, exec_recBuild_of_tok htok, rfl, s.buildAcc_eq, s.buildRecord_crc,
    rfl, rfl, rfl, rfl, State.commit_cleared _, s.buildRecord_frame, ?_⟩,
    fun htok => failsWith_of_exec_eq (exec_recBuild_of_not_tok htok)⟩
  have htok' : s.buildRecord.tok = true := htok
  rw [exec_recBuild_of_tok htok', State.buildRecord_buildRecord]

/-- Settles O27: the bytes of the held record are appended to `OUT`, and only the report changes beside it. -/
theorem emitAppendsTheHeldRecord : Obligations.EmitAppendsTheHeldRecord := by
  refine fun s => ⟨fun hheld => ⟨_, exec_recEmit_of_held hheld, ?bytes, ?count, s.emit_commit_keeps _⟩,
    fun hheld => failsWith_of_exec_eq (exec_recEmit_of_not_held hheld)⟩
  case bytes => rw [← s.recordBytes_eq]; rfl
  case count => simp [s.recordBytes_length]

end Sys2Proof.Claims
end

section
/-! SUPPORT. The stream commands: the bytes that `SIG.CHECK` compares and the move of `RP` past them (R160), and the bytes
that `SIG.EMIT` appends (R161). -/

namespace Sys2Proof.Machine

open Sys2Proof.Claims

/-! ### The move of `RP` (R18) -/

/-- `RP` is register 9 and no part of `STATUS` (R18). -/
theorem State.advance_frame (s : State) (n : Nat) : Frame [9] [] s (s.advance n) where
  regs
    | 9, h => absurd (by decide) h
    | 0, _ | 1, _ | 2, _ | 3, _ | 4, _ | 5, _ | 6, _ | 7, _ | 8, _ | 10, _ | 11, _ | 12, _ => rfl
    | _ + 13, _ => rfl
  status _ _ := rfl
  inBytes _ := rfl
  payBytes _ := rfl
  out := rfl
  host := ⟨rfl, rfl⟩

/-- Within the input `RP` does not wrap around: it stays at or below `IN_LEN`. -/
theorem State.advance_rp_toNat {s : State} {n : Nat} (h : n ≤ avail s) :
    (s.advance n).rp.toNat = s.rp.toNat + n := by
  have hend : s.rp.toNat + n < 2 ^ 32 := by
    have hinLen := s.inLen.isLt
    have hrp := s.rp.isLt
    simp only [avail] at h
    omega
  rw [State.advance_rp, BitVec.toNat_add, BitVec.toNat_ofNat, Nat.add_mod_mod, Nat.mod_eq_of_lt hend]

/-! ### `SIG.CHECK` by its tests (R160) -/

/-- A slice of `IN` from `RP` on, one read each. -/
theorem State.slice_rp_eq_recBytes (s : State) (n : Nat) :
    s.inMem.slice s.rp.toNat n = (List.range n).map (recByte s) := by
  refine List.ext_getElem (by simp) fun i hi _ => ?_
  simp [Memory.getElem_slice _ _ _ i hi, recByte]

section SigCheck

variable {s : State}

theorem exec_sigCheck_of_short (h : avail s < 8) : exec .sigCheck s = .next (s.fail .badSignature) := if_pos h

/-- With 8 bytes there, they are compared with the signature. -/
theorem exec_sigCheck_of_avail (h : 8 ≤ avail s) :
    exec .sigCheck s = if (List.range 8).map (recByte s) ≠ Config.signature then .next (s.fail .badSignature)
      else .next (s.advance 8).commit := by
  rw [← s.slice_rp_eq_recBytes]
  exact if_neg (Nat.not_lt.mpr h)

end SigCheck

end Sys2Proof.Machine

namespace Sys2Proof.Claims

open Sys2Proof.Machine

/-- Settles O30: the two tests in the order of R160, and the move of `RP` when both pass. -/
theorem sigCheckTestsTheEightBytes : Obligations.SigCheckTestsTheEightBytes := by
  refine fun s => ⟨fun h8 hsig => ⟨(s.advance 8).commit, ?taken, ?rp, State.commit_cleared _,
      (s.advance_frame 8).commit⟩,
    fun hshort => failsWith_of_exec_eq (exec_sigCheck_of_short hshort),
    fun h8 hsig => failsWith_of_exec_eq ?differs⟩
  case taken => rw [exec_sigCheck_of_avail h8, if_neg (not_not_intro hsig)]
  case rp => rw [State.commit_rp, State.advance_rp_toNat h8]
  case differs => rw [exec_sigCheck_of_avail h8, if_pos hsig]

/-- Settles O31: the bytes of the signature are appended to `OUT`, and only the report changes beside it. -/
theorem sigEmitAppendsTheSignature : Obligations.SigEmitAppendsTheSignature := by
  refine fun s => ⟨(s.emit Config.signature).commit, rfl, rfl, ?count, s.emit_commit_keeps _⟩
  case count => simp [Config.signature]

end Sys2Proof.Claims
end

section
/-! SUPPORT. The system commands as each register sees them (R170, R171), and the three registers a host write reaches
(R173). -/

namespace Sys2Proof.Machine

/-! ### What `SYS.RESET` leaves in the registers (R171) -/

/-- No register read after a reset depends on the state before it. -/
@[simp] theorem State.resetRegisters_readReg (s : State) (n : Nat) :
    s.resetRegisters.readReg n = State.reset.readReg n := rfl

@[simp] theorem State.resetRegisters_status (s : State) : s.resetRegisters.status = 0x00007000#32 :=
  (s.resetRegisters_readReg 1).trans State.reset_status

@[simp] theorem State.resetRegisters_ctrl (s : State) : s.resetRegisters.ctrl = 0#32 :=
  (s.resetRegisters_readReg 2).trans State.reset_ctrl

/-! ### A host write by the register's number (R173) -/

/-- `CTRL` is register 2, and `STRICT` is no part of `STATUS` (R25). -/
theorem State.setStrict_frame (s : State) (b : Bool) : Frame [2] [] s (s.setStrict b) where
  regs
    | 2, h => absurd (by decide) h
    | 0, _ | 1, _ | 3, _ | 4, _ | 5, _ | 6, _ | 7, _ | 8, _ | 9, _ | 10, _ | 11, _ | 12, _ => rfl
    | _ + 13, _ => rfl
  status _ _ := rfl
  inBytes _ := rfl
  payBytes _ := rfl
  out := rfl
  host := ⟨rfl, rfl⟩

/-- `TIN` is register 3 and no part of `STATUS`, whose class flags are those of `TYP` (R24). -/
theorem State.setTin_frame (s : State) (v : Word) : Frame [3] [] s (s.setTin v) where
  regs
    | 3, h => absurd (by decide) h
    | 0, _ | 1, _ | 2, _ | 4, _ | 5, _ | 6, _ | 7, _ | 8, _ | 9, _ | 10, _ | 11, _ | 12, _ => rfl
    | _ + 13, _ => rfl
  status _ _ := rfl
  inBytes _ := rfl
  payBytes _ := rfl
  out := rfl
  host := ⟨rfl, rfl⟩

/-- A write to any other number has no effect, whether a register has that number or not (R32). -/
theorem hostWriteReg_of_not_writable : ∀ {n : Nat} (v : Word) (s : State), n ∉ [0, 2, 3] →
    hostWriteReg n v s = .next s
  | 0, _, _, h | 2, _, _, h | 3, _, _, h => absurd (by decide) h
  | 1, _, _, _ => rfl
  | _ + 4, _, _, _ => rfl

end Sys2Proof.Machine

namespace Sys2Proof.Claims

open Sys2Proof.Machine

/-- Settles O7: `NOP` is the commit alone, and committing writes nothing but the error report. -/
theorem nopClearsTheReportOnly : Obligations.NopClearsTheReportOnly :=
  fun s => ⟨s.commit, rfl, s.commit_cleared, s.commit_frame⟩

/-- Settles O8: `STATUS` and `CTRL` by their reset words; each other register is a field that the reset state gives, and
`OUT` and the host's side are carried over. -/
theorem sysResetPutsRegistersAtReset : Obligations.SysResetPutsRegistersAtReset :=
  fun s => ⟨s.resetRegisters, rfl, s.resetRegisters_status, s.resetRegisters_ctrl, rfl, rfl, rfl, rfl, rfl, rfl, rfl,
    rfl, rfl, rfl, s.resetRegisters_out, s.resetRegisters_pending, s.resetRegisters_answers⟩

/-- Settles O34: the frames of the two registers that are set, and every number beside the three at once. -/
theorem hostWriteReachesThreeRegisters : Obligations.HostWriteReachesThreeRegisters :=
  fun _ s v => ⟨rfl, ⟨s.setStrict (v.getLsbD 0), rfl, rfl, s.setStrict_frame _⟩,
    ⟨s.setTin v, rfl, rfl, s.setTin_frame v⟩, fun _ => hostWriteReg_of_not_writable v s⟩

end Sys2Proof.Claims
end

section
/-! SUPPORT. How a command ends (R200, R214) and what of that reaches `EPOS` (R213), said once over all commands, words and
host actions. -/

namespace Sys2Proof.Machine

open Sys2Proof.Claims

/-! ### The error report -/

/-- Code 0 is no error's (R201). -/
theorem ErrorName.code_ne_zero (n : ErrorName) : n.code ≠ 0#4 := by
  cases n <;> decide

/-- The reset values of `STATUS` report no error (R171). -/
theorem State.resetRegisters_cleared (s : State) : Cleared s.resetRegisters := ⟨rfl, rfl⟩

/-! ### How a command ends -/

/-- The three ends a command can have: it commits and `EPOS` keeps its value (R200, R26), it is `SYS.RESET` (R171), or it
fails precisely (R214). -/
inductive CommandEnd (i : Instr) (s : State) : State → Prop where
  | commits {t : State} (hcleared : Cleared t) (hepos : t.epos = s.epos) : CommandEnd i s t
  | resets (hreset : i = .sysReset) : CommandEnd i s s.resetRegisters
  | fails (f : Failure) : CommandEnd i s (s.fail f)

/-- Every command completes, in one of the three ends. -/
theorem exec_ends (s : State) : ∀ i : Instr, ∃ t, exec i s = .next t ∧ CommandEnd i s t
  | .nop | .crcInit | .crcByte _ | .crcTyp | .crcPay | .crcFin | .sigEmit =>
    ⟨_, rfl, .commits (State.commit_cleared _) rfl⟩
  | .sysReset => ⟨_, rfl, .resets rfl⟩
  | .crcVerify => by
    cases hheld : s.held with
    | true => exact ⟨_, exec_crcVerify_of_held hheld, .commits (State.commit_cleared _) rfl⟩
    | false => exact ⟨_, exec_crcVerify_of_not_held hheld, .fails .badState⟩
  | .typeStrict => by
    by_cases hl : AllLetters s.tin
    · cases hr : s.tin.getLsbD 13 with
      | true => exact ⟨_, exec_typeStrict_of_reserved hl hr, .fails .reservedBitSet⟩
      | false => exact ⟨_, exec_typeStrict_of_valid hl hr, .commits s.takeTypeCode_cleared rfl⟩
    · exact ⟨_, exec_typeStrict_of_not_letters hl, .fails .invalidTypeByte⟩
  | .typeRaw => by
    by_cases hl : AllLetters s.tin
    · exact ⟨_, exec_typeRaw_of_letters hl, .commits s.takeTypeCode_cleared rfl⟩
    · exact ⟨_, exec_typeRaw_of_not_letters hl, .fails .invalidTypeByte⟩
  | .recParse => by
    cases hparse : parseRecord s.strict s.remaining with
    | error f => exact ⟨_, exec_recParse_of_error hparse, .fails f⟩
    | ok r => exact ⟨_, exec_recParse_of_ok hparse, .commits (State.commit_cleared _) rfl⟩
  | .recBuild => by
    cases htok : s.tok with
    | true => exact ⟨_, exec_recBuild_of_tok htok, .commits (State.commit_cleared _) rfl⟩
    | false => exact ⟨_, exec_recBuild_of_not_tok htok, .fails .badState⟩
  | .recEmit => by
    cases hheld : s.held with
    | true => exact ⟨_, exec_recEmit_of_held hheld, .commits (State.commit_cleared _) rfl⟩
    | false => exact ⟨_, exec_recEmit_of_not_held hheld, .fails .badState⟩
  | .sigCheck => by
    by_cases h8 : 8 ≤ avail s
    · rw [exec_sigCheck_of_avail h8]
      split
      case isTrue => exact ⟨_, rfl, .fails .badSignature⟩
      case isFalse => exact ⟨_, rfl, .commits (State.commit_cleared _) rfl⟩
    · exact ⟨_, exec_sigCheck_of_short (Nat.not_le.mp h8), .fails .badSignature⟩

theorem commandEnd_of_exec_eq {i : Instr} {s t : State} (h : exec i s = .next t) : CommandEnd i s t := by
  obtain ⟨u, hu, hend⟩ := exec_ends s i
  cases hu.symm.trans h
  exact hend

/-! ### `EPOS` after a command, after a word written to `CMD` and after a host action (R213) -/

section Epos

variable {i : Instr} {w : Word} {s t : State}

theorem CommandEnd.epos_of_err (h : CommandEnd i s t) (herr : t.err ≠ 0#4) : t.epos = s.rp := by
  cases h with
  | commits hcleared _ => exact absurd hcleared.1 herr
  | resets _ => exact absurd s.resetRegisters_cleared.1 herr
  | fails f => exact s.fail_epos f

theorem CommandEnd.epos_of_no_err (h : CommandEnd i s t) (herr : t.err = 0#4) (hi : i ≠ .sysReset) :
    t.epos = s.epos := by
  cases h with
  | commits _ hepos => exact hepos
  | resets hreset => exact absurd hreset hi
  | fails f => exact absurd herr f.name.code_ne_zero

/-- An illegal word ends as a command that fails does (R209). -/
theorem eq_fail_of_illegal {e : IllegalWord} (hd : decode w = .error e) (h : runCommand w s = .next t) :
    t = s.fail (illegalFailure e) := by
  rw [runCommand, hd] at h
  cases h
  rfl

theorem runCommand_epos_of_err (h : runCommand w s = .next t) (herr : t.err ≠ 0#4) : t.epos = s.rp := by
  cases hd : decode w with
  | ok i => exact (commandEnd_of_exec_eq (runCommand_eq_exec s hd ▸ h)).epos_of_err herr
  | error e => rw [eq_fail_of_illegal hd h, State.fail_epos]

theorem runCommand_epos_of_no_err (h : runCommand w s = .next t) (herr : t.err = 0#4)
    (hw : decode w ≠ .ok .sysReset) : t.epos = s.epos := by
  cases hd : decode w with
  | ok i =>
    exact (commandEnd_of_exec_eq (runCommand_eq_exec s hd ▸ h)).epos_of_no_err herr fun hi => hw (hi ▸ hd)
  | error e =>
    rw [eq_fail_of_illegal hd h] at herr
    exact absurd herr (ErrorName.code_ne_zero _)

/-- A host write to any register but `CMD`. -/
theorem hostWriteReg_epos {v : Word} : ∀ {n : Nat}, n ≠ 0 → hostWriteReg n v s = .next t → t.epos = s.epos
  | 0, hn, _ => absurd rfl hn
  | 1, _, rfl | 2, _, rfl | 3, _, rfl | _ + 4, _, rfl => rfl

/-- Every host action but hardware reset and a write to `CMD`. -/
theorem hostAct_epos {c : Config} : ∀ {a : HostAction}, a ≠ .hardReset → (∀ w, a ≠ .writeReg 0 w) →
    hostAct c a s = .next t → t.epos = s.epos
  | .readReg _, _, _, rfl | .readPay, _, _, rfl => rfl
  | .writeReg n v, _, hcmd, h => hostWriteReg_epos (n := n) (fun hn => hcmd v (hn ▸ rfl)) h
  | .loadIn b, _, _, h | .loadPay b, _, _, h | .drainOut k, _, _, h => by
    simp only [hostAct, hostLoadIn, hostLoadPay, hostDrainOut] at h
    split at h <;> cases h
    rfl
  | .hardReset, hreset, _, _ => absurd rfl hreset

end Epos

end Sys2Proof.Machine

namespace Sys2Proof.Claims

open Sys2Proof.Machine

/-- Settles O42: of the three ends of a command, two clear the report and the third is a precise failure, whose code is
not 0. -/
theorem everyCommandCommitsOrFailsPrecisely : Obligations.EveryCommandCommitsOrFailsPrecisely := by
  intro i s
  obtain ⟨t, hexec, hend⟩ := exec_ends s i
  refine ⟨t, hexec, ?_⟩
  cases hend with
  | commits hcleared _ => exact .inl hcleared
  | resets _ => exact .inl s.resetRegisters_cleared
  | fails f => exact .inr ⟨f, failsWith_of_exec_eq hexec, f.name.code_ne_zero⟩

/-- Settles O43: a step is the oldest pending action. A word written to `CMD` ends as a command or as an illegal word, and
no other action but hardware reset writes `EPOS`. -/
theorem eposIsWrittenByFailuresAndResetOnly : Obligations.EposIsWrittenByFailuresAndResetOnly := by
  intro s t hstep
  refine ⟨fun w r hp herr => ?failing, fun hcmd hhard => ?other⟩
  case failing =>
    rw [step, stepWith_cons _ s _ r hp] at hstep
    exact (runCommand_epos_of_err hstep herr).trans (s.setPending_rp r)
  case other =>
    cases hp : s.pending with
    | nil =>
      rw [step, stepWith_nil _ s hp] at hstep
      cases hstep
      rfl
    | cons a r =>
      rw [step, stepWith_cons _ s a r hp] at hstep
      by_cases ha : ∃ w, a = .writeReg 0 w
      · obtain ⟨w, rfl⟩ := ha
        obtain ⟨herr, hw⟩ := hcmd w r hp
        exact (runCommand_epos_of_no_err hstep herr hw).trans (s.setPending_epos r)
      · exact (hostAct_epos (fun hr => hhard r (hr ▸ hp)) (not_exists.mp ha) hstep).trans (s.setPending_epos r)

end Sys2Proof.Claims
end

section
/-! SUPPORT. Encoding undoes decoding (R78 to R81), field by field. -/

namespace Sys2Proof

/-! ### The fields of an encoding (R78) -/

@[simp] theorem rsvField_encode (i : Instr) : rsvField (encode i) = 0#16 := by
  unfold rsvField encode
  rw [BitVec.extractLsb'_append_eq_of_le (by decide)]
  exact BitVec.extractLsb'_append_eq_right

@[simp] theorem immField_encode (i : Instr) : immField (encode i) = i.imm :=
  BitVec.extractLsb'_append_eq_right

theorem eq_encode_iff {w : Word} {i : Instr} :
    w = encode i ↔ opcField w = i.opc ∧ rsvField w = 0#16 ∧ immField w = i.imm := by
  rw [eq_iff_fields, opcField_encode, rsvField_encode, immField_encode]

/-- The operation code of a command selects it, given its own immediate. -/
theorem commandOf_opc (i : Instr) : commandOf i.opc i.imm = some i := by
  cases i <;> rfl

/-- `IMM8` is 0 in every command but `CRC.BYTE`. -/
theorem Instr.imm_eq_zero_or_opc (i : Instr) : i.imm = 0#8 ∨ i.opc = 0x11#8 := by
  cases i <;> simp [Instr.imm, Instr.opc]

/-- A legal immediate field is the selected command's own: `CRC.BYTE` takes it as it is, the others have 0. -/
theorem imm_of_commandOf {opc : BitVec 8} {imm : Byte} {i : Instr} (h : commandOf opc imm = some i)
    (himm : imm = 0#8 ∨ opc = 0x11#8) : imm = i.imm := by
  rcases himm with rfl | rfl
  · unfold commandOf at h
    split at h <;> cases h <;> rfl
  · obtain rfl : Instr.crcByte imm = i := Option.some.inj h
    rfl

theorem decode_eq_ok_iff_eq_encode {w : Word} {i : Instr} : decode w = .ok i ↔ w = encode i := by
  rw [decode_eq_ok_iff, eq_encode_iff]
  constructor
  · rintro ⟨hsel, hrsv, himm⟩
    exact ⟨opc_of_commandOf hsel, hrsv, imm_of_commandOf hsel himm⟩
  · rintro ⟨hopc, hrsv, himm⟩
    rw [hopc, himm]
    exact ⟨commandOf_opc i, hrsv, i.imm_eq_zero_or_opc⟩

@[simp] theorem decode_encode (i : Instr) : decode (encode i) = .ok i := decode_eq_ok_iff_eq_encode.mpr rfl

theorem Instr.wf_eq_true (i : Instr) : i.wf = true := by
  cases i <;> rfl

end Sys2Proof

namespace Sys2Proof.Claims

open Sys2Proof.Machine

/-- Settles O1: the fields of a word that decodes are those of its command, and every command is well formed. -/
theorem decodeExactlyInvertsEncode : Obligations.DecodeExactlyInvertsEncode := by
  intro w i
  rw [decode_eq_ok_iff_eq_encode, i.wf_eq_true]
  simp

/-- Settles O4: the decoder evaluated on the nine words. -/
theorem writtenOutWordsDecode : Obligations.WrittenOutWordsDecode := by
  unfold Obligations.WrittenOutWordsDecode
  decide

end Sys2Proof.Claims
end

section
/-! SUPPORT. What every command, host action and step can do, said once: the state it leaves, and when. -/

namespace Sys2Proof.Machine

open Sys2Proof.Claims

/-! ### The commands -/

/-- Why a command fails, command by command (R203 to R209). -/
inductive FailsBecause (s : State) : Instr → Failure → Prop
  | strictNotLetters (hl : ¬ AllLetters s.tin) : FailsBecause s .typeStrict .invalidTypeByte
  | strictReserved (hl : AllLetters s.tin) (hr : s.tin.getLsbD 13 = true) : FailsBecause s .typeStrict .reservedBitSet
  | rawNotLetters (hl : ¬ AllLetters s.tin) : FailsBecause s .typeRaw .invalidTypeByte
  | parse {f : Failure} (hparse : parseRecord s.strict s.remaining = .error f) : FailsBecause s .recParse f
  | sigShort (h8 : avail s < 8) : FailsBecause s .sigCheck .badSignature
  | sigDiffers (h8 : 8 ≤ avail s) (hsig : (List.range 8).map (recByte s) ≠ Config.signature) :
      FailsBecause s .sigCheck .badSignature
  | buildNoCode (htok : s.tok = false) : FailsBecause s .recBuild .badState
  | emitNoRecord (hheld : s.held = false) : FailsBecause s .recEmit .badState
  | verifyNoRecord (hheld : s.held = false) : FailsBecause s .crcVerify .badState

/-- What `CRC.VERIFY` leaves when a record is held (R111). -/
def State.verifyRecord (s : State) : State :=
  ((s.runCrc s.heldAcc).setCrcok (decide (s.crc = s.heldAcc ^^^ Config.crcXorOut))).commit

/-- What a command leaves (R106 to R171): its writes, under the conditions of its rule, or the report of its failure. -/
inductive CommandEffect (s : State) : Instr → State → Prop
  | nop : CommandEffect s .nop s.commit
  | sysReset : CommandEffect s .sysReset s.resetRegisters
  | crcInit : CommandEffect s .crcInit (s.setAcc Config.crcInit).commit
  | crcByte (b : Byte) : CommandEffect s (.crcByte b) (s.setAcc (crcStep s.acc b)).commit
  | crcTyp : CommandEffect s .crcTyp (s.setAcc (crcAcc s.acc s.typeBytes)).commit
  | crcPay : CommandEffect s .crcPay (s.setAcc (crcAcc s.acc s.payload)).commit
  | crcFin : CommandEffect s .crcFin (s.setCcrc (s.acc ^^^ Config.crcXorOut)).commit
  | crcVerify (hheld : s.held = true) : CommandEffect s .crcVerify s.verifyRecord
  | typeStrict (hl : AllLetters s.tin) (hr : s.tin.getLsbD 13 = false) : CommandEffect s .typeStrict s.takeTypeCode
  | typeRaw (hl : AllLetters s.tin) : CommandEffect s .typeRaw s.takeTypeCode
  | recParse {r : Parsed} (hparse : parseRecord s.strict s.remaining = .ok r) :
      CommandEffect s .recParse (s.commitParse r)
  | recBuild (htok : s.tok = true) : CommandEffect s .recBuild s.buildRecord
  | recEmit (hheld : s.held = true) : CommandEffect s .recEmit (s.emit s.recordBytes).commit
  | sigCheck (h8 : 8 ≤ avail s) (hsig : (List.range 8).map (recByte s) = Config.signature) :
      CommandEffect s .sigCheck (s.advance 8).commit
  | sigEmit : CommandEffect s .sigEmit (s.emit Config.signature).commit
  | fails {i : Instr} {f : Failure} (hfail : FailsBecause s i f) : CommandEffect s i (s.fail f)

theorem FailsBecause.exec_eq {s : State} {i : Instr} {f : Failure} (h : FailsBecause s i f) :
    exec i s = .next (s.fail f) := by
  cases h with
  | strictNotLetters hl => exact exec_typeStrict_of_not_letters hl
  | strictReserved hl hr => exact exec_typeStrict_of_reserved hl hr
  | rawNotLetters hl => exact exec_typeRaw_of_not_letters hl
  | parse hparse => exact exec_recParse_of_error hparse
  | sigShort h8 => exact exec_sigCheck_of_short h8
  | sigDiffers h8 hsig => rw [exec_sigCheck_of_avail h8, if_pos hsig]
  | buildNoCode htok => exact exec_recBuild_of_not_tok htok
  | emitNoRecord hheld => exact exec_recEmit_of_not_held hheld
  | verifyNoRecord hheld => exact exec_crcVerify_of_not_held hheld

theorem CommandEffect.exec_eq {s t : State} {i : Instr} (h : CommandEffect s i t) : exec i s = .next t := by
  cases h with
  | nop | sysReset | crcInit | crcByte _ | crcTyp | crcPay | crcFin | sigEmit => rfl
  | crcVerify hheld => exact exec_crcVerify_of_held hheld
  | typeStrict hl hr => exact exec_typeStrict_of_valid hl hr
  | typeRaw hl => exact exec_typeRaw_of_letters hl
  | recParse hparse => exact exec_recParse_of_ok hparse
  | recBuild htok => exact exec_recBuild_of_tok htok
  | recEmit hheld => exact exec_recEmit_of_held hheld
  | sigCheck h8 hsig => rw [exec_sigCheck_of_avail h8, if_neg (not_not_intro hsig)]
  | fails hfail => exact hfail.exec_eq

/-- The conditions of the rules leave no case out. -/
theorem exists_commandEffect (s : State) : ∀ i : Instr, ∃ t, CommandEffect s i t
  | .nop => ⟨_, .nop⟩
  | .sysReset => ⟨_, .sysReset⟩
  | .crcInit => ⟨_, .crcInit⟩
  | .crcByte b => ⟨_, .crcByte b⟩
  | .crcTyp => ⟨_, .crcTyp⟩
  | .crcPay => ⟨_, .crcPay⟩
  | .crcFin => ⟨_, .crcFin⟩
  | .sigEmit => ⟨_, .sigEmit⟩
  | .crcVerify => by
    cases hheld : s.held with
    | true => exact ⟨_, .crcVerify hheld⟩
    | false => exact ⟨_, .fails (.verifyNoRecord hheld)⟩
  | .typeStrict => by
    by_cases hl : AllLetters s.tin
    · cases hr : s.tin.getLsbD 13 with
      | true => exact ⟨_, .fails (.strictReserved hl hr)⟩
      | false => exact ⟨_, .typeStrict hl hr⟩
    · exact ⟨_, .fails (.strictNotLetters hl)⟩
  | .typeRaw => by
    by_cases hl : AllLetters s.tin
    · exact ⟨_, .typeRaw hl⟩
    · exact ⟨_, .fails (.rawNotLetters hl)⟩
  | .recParse => by
    cases hparse : parseRecord s.strict s.remaining with
    | error f => exact ⟨_, .fails (.parse hparse)⟩
    | ok r => exact ⟨_, .recParse hparse⟩
  | .recBuild => by
    cases htok : s.tok with
    | true => exact ⟨_, .recBuild htok⟩
    | false => exact ⟨_, .fails (.buildNoCode htok)⟩
  | .recEmit => by
    cases hheld : s.held with
    | true => exact ⟨_, .recEmit hheld⟩
    | false => exact ⟨_, .fails (.emitNoRecord hheld)⟩
  | .sigCheck => by
    by_cases h8 : 8 ≤ avail s
    · by_cases hsig : (List.range 8).map (recByte s) = Config.signature
      · exact ⟨_, .sigCheck h8 hsig⟩
      · exact ⟨_, .fails (.sigDiffers h8 hsig)⟩
    · exact ⟨_, .fails (.sigShort (Nat.not_le.mp h8))⟩

theorem exec_eq_next_iff {i : Instr} {s t : State} : exec i s = .next t ↔ CommandEffect s i t := by
  refine ⟨fun h => ?_, CommandEffect.exec_eq⟩
  obtain ⟨u, hu⟩ := exists_commandEffect s i
  cases hu.exec_eq.symm.trans h
  exact hu

/-! ### The host actions -/

/-- What a host action that completes leaves (R172 to R177, R230). -/
inductive HostEffect (c : Config) (s : State) : HostAction → State → Prop
  | readReg (n : Nat) : HostEffect c s (.readReg n) (s.answer (.word (s.readReg n)))
  | command {w : Word} {i : Instr} {t : State} (hd : decode w = .ok i) (hcmd : CommandEffect s i t) :
      HostEffect c s (.writeReg 0 w) t
  | illegal {w : Word} {e : IllegalWord} (hd : decode w = .error e) :
      HostEffect c s (.writeReg 0 w) (s.fail (illegalFailure e))
  | writeCtrl (v : Word) : HostEffect c s (.writeReg 2 v) (s.setStrict (v.getLsbD 0))
  | writeTin (v : Word) : HostEffect c s (.writeReg 3 v) (s.setTin v)
  | writeOther {n : Nat} (v : Word) (hn : n ∉ [0, 2, 3]) : HostEffect c s (.writeReg n v) s
  | loadIn {b : List Byte} (hfit : b.length ≤ c.inCap) : HostEffect c s (.loadIn b) (s.storeInput b)
  | loadPay {b : List Byte} (hfit : b.length ≤ c.payCap) : HostEffect c s (.loadPay b) (s.storePayload b).dropRecord
  | readPay : HostEffect c s .readPay (s.answer (.bytes s.payload))
  | drainOut {k : Nat} (hk : k ≤ s.out.length) :
      HostEffect c s (.drainOut k) ((s.dropOut k).answer (.bytes (s.out.take k)))
  | hardReset : HostEffect c s .hardReset s.resetRegisters.clearOut

theorem HostEffect.hostAct_eq {c : Config} {s t : State} {a : HostAction} (h : HostEffect c s a t) :
    hostAct c a s = .next t := by
  cases h with
  | readReg _ | writeCtrl _ | writeTin _ | readPay | hardReset => rfl
  | command hd hcmd => exact (runCommand_eq_exec s hd).trans hcmd.exec_eq
  | illegal hd => simp only [hostAct, hostWriteReg, runCommand, hd]
  | writeOther v hn => exact hostWriteReg_of_not_writable v s hn
  | loadIn hfit => exact if_pos hfit
  | loadPay hfit => exact if_pos hfit
  | drainOut hk => exact if_pos hk

/-- A word written to `CMD` ends, whatever it is. -/
theorem exists_hostEffect_command (c : Config) (s : State) (w : Word) : ∃ t, HostEffect c s (.writeReg 0 w) t := by
  cases hd : decode w with
  | ok i =>
    obtain ⟨t, hcmd⟩ := exists_commandEffect s i
    exact ⟨t, .command hd hcmd⟩
  | error e => exact ⟨_, .illegal hd⟩

theorem exists_hostEffect_write (c : Config) (s : State) (n : Nat) (v : Word) :
    ∃ t, HostEffect c s (.writeReg n v) t := by
  by_cases hn : n ∈ [0, 2, 3]
  · simp only [List.mem_cons, List.not_mem_nil, or_false] at hn
    rcases hn with rfl | rfl | rfl
    · exact exists_hostEffect_command c s v
    · exact ⟨_, .writeCtrl v⟩
    · exact ⟨_, .writeTin v⟩
  · exact ⟨s, .writeOther v hn⟩

/-- An enabled action has an effect (R219). -/
theorem exists_hostEffect {c : Config} {s : State} : ∀ {a : HostAction}, s.enabled c a = true → ∃ t, HostEffect c s a t
  | .readReg n, _ => ⟨_, .readReg n⟩
  | .readPay, _ => ⟨_, .readPay⟩
  | .hardReset, _ => ⟨_, .hardReset⟩
  | .writeReg n v, _ => exists_hostEffect_write c s n v
  | .loadIn _, h => ⟨_, .loadIn (by simpa [State.enabled, HostAction.wf] using h)⟩
  | .loadPay _, h => ⟨_, .loadPay (by simpa [State.enabled, HostAction.wf] using h)⟩
  | .drainOut _, h => ⟨_, .drainOut (by simpa [State.enabled, HostAction.wf] using h)⟩

/-- A load that does not fit and a drain of more than there is are refused (log 3); every other action is enabled. -/
theorem hostAct_refused {c : Config} {s : State} :
    ∀ {a : HostAction}, s.enabled c a = false → hostAct c a s = .refused .hostMoveNotEnabled
  | .readReg _, h | .readPay, h | .hardReset, h | .writeReg _ _, h => absurd h (by simp [State.enabled, HostAction.wf])
  | .loadIn _, h => if_neg (by simpa [State.enabled, HostAction.wf] using h)
  | .loadPay _, h => if_neg (by simpa [State.enabled, HostAction.wf] using h)
  | .drainOut _, h => if_neg (by simpa [State.enabled, HostAction.wf] using h)

theorem hostAct_eq_next_iff {c : Config} {a : HostAction} {s t : State} :
    hostAct c a s = .next t ↔ HostEffect c s a t := by
  refine ⟨fun h => ?_, HostEffect.hostAct_eq⟩
  cases henabled : s.enabled c a with
  | true =>
    obtain ⟨u, hu⟩ := exists_hostEffect henabled
    cases hu.hostAct_eq.symm.trans h
    exact hu
  | false => exact absurd ((hostAct_refused henabled).symm.trans h) nofun

/-! ### The step (R58, log 1) -/

theorem step_of_idle {s : State} (h : s.pending = []) : step s = .next s := stepWith_nil _ s h

theorem step_of_pending {s : State} {a : HostAction} {r : List HostAction} (h : s.pending = a :: r) :
    step s = hostAct Config.machine a (s.setPending r) :=
  stepWith_cons _ s a r h

/-- A write of a command's word to `CMD` runs the command. -/
theorem step_of_command {s : State} {w : Word} {r : List HostAction} {i : Instr} (hp : s.pending = .writeReg 0 w :: r)
    (hd : decode w = .ok i) : step s = exec i (s.setPending r) := by
  rw [step_of_pending hp]
  exact runCommand_eq_exec _ hd

/-- What a step leaves: the host's oldest action happens, or there is none and nothing does. -/
inductive StepEffect (s : State) : State → Prop
  | idle (hp : s.pending = []) : StepEffect s s
  | acts {a : HostAction} {r : List HostAction} {t : State} (hp : s.pending = a :: r)
      (hact : HostEffect Config.machine (s.setPending r) a t) : StepEffect s t

theorem step_eq_next_iff {s t : State} : step s = .next t ↔ StepEffect s t := by
  constructor
  · intro h
    cases hp : s.pending with
    | nil =>
      rw [step_of_idle hp] at h
      cases h
      exact .idle hp
    | cons a r =>
      rw [step_of_pending hp] at h
      exact .acts hp (hostAct_eq_next_iff.mp h)
  · rintro (hp | ⟨hp, hact⟩)
    · exact step_of_idle hp
    · exact (step_of_pending hp).trans hact.hostAct_eq

end Sys2Proof.Machine

namespace Sys2Proof.Claims

open Sys2Proof.Machine

/-- Settles O5: the oldest action is the write to `CMD`, whose word decodes to the command. -/
theorem stepRunsTheCommandWrittenToCmd : Obligations.StepRunsTheCommandWrittenToCmd :=
  ⟨fun _ _ _ _ hp hd => step_of_command hp hd, fun _ => rfl⟩

/-- Settles O6: the step is the oldest action, which has an effect or is refused as it is enabled or not; taking it off
the list changes nothing of what enables it. -/
theorem stepStopsOnlyWhereTheHostHasNoMove : Obligations.StepStopsOnlyWhereTheHostHasNoMove := by
  refine fun s => ⟨step_of_idle, fun a r hp henabled => ?_, fun a r hp henabled => ?_⟩
  · obtain ⟨t, hact⟩ := exists_hostEffect (s := s.setPending r) henabled
    exact ⟨t, (step_of_pending hp).trans hact.hostAct_eq⟩
  · exact (step_of_pending hp).trans (hostAct_refused (s := s.setPending r) henabled)

end Sys2Proof.Claims
end

section
/-! SUPPORT. What follows from the effect of a command: the errors it raises (R201 to R210) and the registers that it,
and every host action, writes (R11). -/

namespace Sys2Proof.Machine

open Sys2Proof.Claims

/-! ### Which errors a command raises -/

/-- The failures of a parse; the checksum is compared under `STRICT` only (R141 step 5). -/
theorem parseRecord_error {strict : Bool} {inp : List Byte} {f : Failure} (h : parseRecord strict inp = .error f) :
    f ∈ [.shortHeader, .invalidTypeCode, .truncatedPayload, .partialChecksum] ∨
      (f = .checksumMismatch ∧ strict = true) := by
  unfold parseRecord at h
  dsimp only at h
  split at h
  · cases h
    exact .inl (by decide)
  split at h
  · cases h
    exact .inl (by decide)
  split at h
  · cases h
    exact .inl (by decide)
  split at h
  · split at h
    · rename_i hsum
      cases h
      exact .inr ⟨rfl, hsum.1⟩
    · cases h
  · split at h <;> cases h
    exact .inl (by decide)

/-- The failures of each command, with the state each is raised in (R210). -/
def Failure.mayArise (s : State) : Failure → Instr → Prop
  | .invalidTypeByte, i => i = .typeStrict ∨ i = .typeRaw
  | .reservedBitSet, i => i = .typeStrict
  | .shortHeader, i | .invalidTypeCode, i | .partialChecksum, i | .truncatedPayload, i => i = .recParse
  | .badSignature, i => i = .sigCheck
  | .checksumMismatch, i => i = .recParse ∧ s.strict = true
  | .badOpcode, _ | .badField, _ => False
  | .badState, i =>
    (i = .recBuild ∧ s.tok = false) ∨ (i = .recEmit ∧ s.held = false) ∨ (i = .crcVerify ∧ s.held = false)

theorem FailsBecause.mayArise {s : State} {i : Instr} {f : Failure} (h : FailsBecause s i f) : f.mayArise s i := by
  cases h with
  | strictNotLetters _ => exact .inl rfl
  | rawNotLetters _ => exact .inr rfl
  | strictReserved _ _ | sigShort _ | sigDiffers _ _ => rfl
  | parse hparse =>
    rcases parseRecord_error hparse with hf | ⟨rfl, hstrict⟩
    · simp only [List.mem_cons, List.not_mem_nil, or_false] at hf
      rcases hf with rfl | rfl | rfl | rfl <;> rfl
    · exact ⟨rfl, hstrict⟩
  | buildNoCode htok => exact .inl ⟨rfl, htok⟩
  | emitNoRecord hheld => exact .inr (.inl ⟨rfl, hheld⟩)
  | verifyNoRecord hheld => exact .inr (.inr ⟨rfl, hheld⟩)

/-- A command succeeds with a cleared report, or fails for a reason. -/
theorem CommandEffect.cleared_or_fails {s t : State} {i : Instr} (h : CommandEffect s i t) :
    Cleared t ∨ ∃ f, FailsBecause s i f ∧ t = s.fail f := by
  cases h with
  | fails hfail => exact .inr ⟨_, hfail, rfl⟩
  | _ => exact .inl ⟨rfl, rfl⟩

/-! ### Which registers are written (R11) -/

/-- Fewer registers kept. -/
theorem RegsKept.mono {w w' : List Nat} {s t : State} (h : RegsKept w s t) (hw : w ⊆ w') : RegsKept w' s t :=
  fun n hn => h n fun hm => hn (hw hm)

/-- No more than the twelve registers can change: `CMD` and the numbers above 12 read as 0 (R21, R32). -/
theorem regsKept_all (s t : State) : RegsKept [1, 2, 3, 4, 5, 6, 7, 8, 9, 10, 11, 12] s t
  | 1, h | 2, h | 3, h | 4, h | 5, h | 6, h | 7, h | 8, h | 9, h | 10, h | 11, h | 12, h => absurd (by decide) h
  | 0, _ => rfl
  | _ + 13, _ => rfl

theorem CommandEffect.regsKept {s t : State} {i : Instr} (h : CommandEffect s i t) (herr : t.err = 0#4) :
    RegsKept (writtenBy i) s t := by
  cases h with
  | nop => exact s.commit_frame.regs
  | sysReset => exact regsKept_all _ _
  | crcInit | crcByte _ | crcTyp | crcPay => exact (s.setAcc_frame _).commit.regs
  | crcFin => exact (s.setCcrc_frame _).commit.regs
  | crcVerify _ => exact (s.setCrcok_runCrc_frame _ _).commit.regs
  | typeStrict _ _ | typeRaw _ => exact s.takeTypeCode_frame.regs
  | recParse _ => exact s.commitParse_regs _
  | recBuild _ => exact s.buildRecord_frame.regs
  | recEmit _ | sigEmit => exact (s.emit_commit_keeps _).2.1
  | sigCheck _ _ => exact (s.advance_frame 8).commit.regs
  | fails hfail => exact absurd herr (ErrorName.code_ne_zero _)

theorem State.storeInput_regs (s : State) (b : List Byte) : RegsKept [9, 10] s (s.storeInput b)
  | 9, h | 10, h => absurd (by decide) h
  | 0, _ | 1, _ | 2, _ | 3, _ | 4, _ | 5, _ | 6, _ | 7, _ | 8, _ | 11, _ | 12, _ => rfl
  | _ + 13, _ => rfl

theorem State.storePayload_regs (s : State) (b : List Byte) : RegsKept [11] s (s.storePayload b)
  | 11, h => absurd (by decide) h
  | 0, _ | 1, _ | 2, _ | 3, _ | 4, _ | 5, _ | 6, _ | 7, _ | 8, _ | 9, _ | 10, _ | 12, _ => rfl
  | _ + 13, _ => rfl

theorem RegsKept.trans {w : List Nat} {s t u : State} (h : RegsKept w s t) (h' : RegsKept w t u) : RegsKept w s u :=
  fun n hn => (h' n hn).trans (h n hn)

/-- A load of `PAY` writes `PAY_LEN` and drops the record in `STATUS`. -/
theorem State.loadPay_regs (s : State) (b : List Byte) : RegsKept [1, 11] s (s.storePayload b).dropRecord :=
  ((s.storePayload_regs b).mono (by simp)).trans ((State.dropRecord_frame _).regs.mono (by simp))

/-- Where every bit of `STATUS` is kept, register 1 is. -/
theorem Frame.regsKept {w : List Nat} {s t : State} (h : Frame w [] s t) : RegsKept w s t := by
  intro n hn
  by_cases h1 : n = 1
  · subst h1
    exact BitVec.eq_of_getLsbD_eq fun k _ => h.status k (by simp)
  · exact h.regs n (by simp [h1, hn])

theorem HostEffect.regsKept {c : Config} {s t : State} {a : HostAction} (h : HostEffect c s a t)
    (hcmd : ∀ w, a ≠ .writeReg 0 w) : RegsKept (writtenByHost a) s t := by
  cases h with
  | readReg _ | readPay | drainOut _ | writeOther _ _ => exact fun _ _ => rfl
  | command _ _ | illegal _ => exact absurd rfl (hcmd _)
  | writeCtrl v => exact (s.setStrict_frame _).regsKept
  | writeTin v => exact (s.setTin_frame v).regsKept
  | loadIn _ => exact s.storeInput_regs _
  | loadPay _ => exact s.loadPay_regs _
  | hardReset => exact regsKept_all _ _

end Sys2Proof.Machine

namespace Sys2Proof.Claims

open Sys2Proof.Machine

/-- Settles O44: a command that succeeds has code and cause 0; for one that fails, the failure fixes both, and the rules
say which command and state it may arise in. -/
theorem errorsComeFromTheirCommands : Obligations.ErrorsComeFromTheirCommands := by
  intro i s t hexec
  rcases (exec_eq_next_iff.mp hexec).cleared_or_fails with ⟨herr, hcause⟩ | ⟨f, hfail, rfl⟩
  · simp [herr, hcause]
  · have harise := hfail.mayArise
    rw [State.fail_err, State.fail_cause]
    cases f <;> simp_all [Failure.mayArise, Failure.name, Failure.causeCode, ErrorName.code]

/-- Settles O46: the frame of each command's writes, of a failure, and of each host action. -/
theorem registersChangeOnlyByTheirWriters : Obligations.RegistersChangeOnlyByTheirWriters := by
  refine ⟨fun i s t hexec => ⟨fun herr => (exec_eq_next_iff.mp hexec).regsKept herr, fun herr => ?_⟩,
    fun c a s t hcmd hact => (hostAct_eq_next_iff.mp hact).regsKept hcmd⟩
  rcases (exec_eq_next_iff.mp hexec).cleared_or_fails with ⟨hclear, -⟩ | ⟨f, -, rfl⟩
  · exact absurd hclear herr
  · exact (s.fail_frame f).regs

end Sys2Proof.Claims
end

section
/-! SUPPORT. What a command does not depend on: the error report (R215), bytes of `IN` and `PAY` that its rule does not
read (R52), and `OUT` (R177). With it, which stores a command writes (R27, R52). -/

namespace Sys2Proof.Machine

open Sys2Proof.Claims

/-! ### What a command's tests look at -/

/-- The registers and flags that the tests of the commands look at are the same. -/
structure SameTests (s u : State) : Prop where
  tin : u.tin = s.tin
  strict : u.strict = s.strict
  rp : u.rp = s.rp
  inLen : u.inLen = s.inLen
  tok : u.tok = s.tok
  held : u.held = s.held

theorem SameTests.avail_eq {s u : State} (hu : SameTests s u) : avail u = avail s := by
  rw [avail, avail, hu.rp, hu.inLen]

/-! ### What a parse reads (R141) -/

section ParseReads

variable {s u : State} (hu : SameTests s u)
  (hread : ∀ a, ReadsIn .recParse s a → u.inMem.read a = s.inMem.read a)

include hu hread

/-- The bytes of the record at `RP`, as far as present, are all that `REC.PARSE` has to find unchanged. -/
theorem recByte_congr {k : Nat} (hk : k < avail s) (hk' : k < 12 + recLen s) : recByte u k = recByte s k := by
  rw [recByte, recByte, hu.rp]
  refine hread _ ⟨Nat.le_add_right _ _, ?_, .inl ⟨rfl, by omega⟩⟩
  rw [avail] at hk
  omega

/-- Two inputs that agree in the record at `RP`, as far as present, parse alike. -/
theorem parseRecord_congr :
    parseRecord u.strict u.remaining = parseRecord s.strict s.remaining := by
  have hbyte : ∀ k, k < avail s → k < 12 + recLen s → recByte u k = recByte s k :=
    fun k => recByte_congr hu hread
  have havail : avail u = avail s := hu.avail_eq
  by_cases h8 : avail s < 8
  · rw [parseRecord_of_short h8, parseRecord_of_short (havail ▸ h8)]
  have hlenField : recLen u = recLen s := by
    simp only [recLen]
    rw [hbyte 0 (by omega) (by omega), hbyte 1 (by omega) (by omega), hbyte 2 (by omega) (by omega),
      hbyte 3 (by omega) (by omega)]
  have htype : recType u = recType s := List.map_congr_left fun k hk => by
    rw [List.mem_range] at hk
    exact hbyte _ (by omega) (by omega)
  have hletters : recLetters u ↔ recLetters s := by rw [recLetters, recLetters, htype]
  by_cases hl : recLetters s
  · by_cases hpay : 8 + recLen s ≤ avail s
    · have hpayload : recPayload u = recPayload s := by
        rw [recPayload, recPayload, hlenField]
        refine List.map_congr_left fun k hk => ?_
        rw [List.mem_range] at hk
        exact hbyte _ (by omega) (by omega)
      have hcomputed : recComputed u = recComputed s := by rw [recComputed, recComputed, htype, hpayload]
      have hfound : ∀ n c b, u.foundRecord n c b = s.foundRecord n c b := fun n c b => by
        rw [State.foundRecord, State.foundRecord, recAcc, recAcc, hlenField, htype, hpayload]
      rw [parseRecord_of_payload hl hpay, parseRecord_of_payload (hletters.mpr hl) (by omega), hu.strict, havail,
        hlenField, hcomputed, hfound, hfound]
      by_cases hsum : 12 + recLen s ≤ avail s
      · have hstored : recStored u = recStored s := by
          simp only [recStored, hlenField]
          rw [hbyte _ (by omega) (by omega), hbyte _ (by omega) (by omega), hbyte _ (by omega) (by omega),
            hbyte _ (by omega) (by omega)]
        rw [hstored]
      · rw [if_neg hsum, if_neg hsum]
    · rw [parseRecord_of_truncated (by omega) hl (by omega),
        parseRecord_of_truncated (by omega) (hletters.mpr hl) (by omega)]
  · rw [parseRecord_of_not_letters (by omega) hl,
      parseRecord_of_not_letters (by omega) (mt hletters.mp hl)]

end ParseReads

/-- The 8 bytes that `SIG.CHECK` compares. -/
theorem sigBytes_congr {s u : State} (hu : SameTests s u) (h8 : 8 ≤ avail s)
    (hread : ∀ a, ReadsIn .sigCheck s a → u.inMem.read a = s.inMem.read a) :
    (List.range 8).map (recByte u) = (List.range 8).map (recByte s) := by
  refine List.map_congr_left fun k hk => ?_
  rw [List.mem_range] at hk
  rw [avail] at h8
  rw [recByte, recByte, hu.rp]
  exact hread _ ⟨Nat.le_add_right _ _, by omega, .inr ⟨rfl, by omega⟩⟩

/-! ### Why a command fails, in another state -/

/-- A command that fails does so in every state with the same registers and the same bytes of `IN` where it reads. -/
theorem FailsBecause.congr {s u : State} {i : Instr} {f : Failure} (h : FailsBecause s i f) (hu : SameTests s u)
    (hread : ∀ a, ReadsIn i s a → u.inMem.read a = s.inMem.read a) : FailsBecause u i f := by
  cases h with
  | strictNotLetters hl => exact .strictNotLetters (hu.tin ▸ hl)
  | strictReserved hl hr => exact .strictReserved (hu.tin ▸ hl) (hu.tin ▸ hr)
  | rawNotLetters hl => exact .rawNotLetters (hu.tin ▸ hl)
  | parse hparse => exact .parse ((parseRecord_congr hu hread).trans hparse)
  | sigShort h8 => exact .sigShort (hu.avail_eq ▸ h8)
  | sigDiffers h8 hsig => exact .sigDiffers (hu.avail_eq ▸ h8) (sigBytes_congr hu h8 hread ▸ hsig)
  | buildNoCode htok => exact .buildNoCode (hu.tok ▸ htok)
  | emitNoRecord hheld => exact .emitNoRecord (hu.held ▸ hheld)
  | verifyNoRecord hheld => exact .verifyNoRecord (hu.held ▸ hheld)

/-! ### A command with other bytes in the stores -/

/-- The state with other contents of the three byte stores. -/
def State.withStores (s : State) (m p : Memory) (o : List Byte) : State := { s with inMem := m, payMem := p, out := o }

/-- What a step from `s` to `t` does to `PAY`, done to the storage `p`, gives `q`: nothing, or the payload that it
stores at offset 0 (R141 step 8, R175). -/
def PayFollows (s t : State) (p q : Memory) : Prop :=
  (q = p ∧ t.payMem = s.payMem ∧ t.payLen.toNat ≤ s.payLen.toNat) ∨
    ∃ b : List Byte, q = p.writeBytes 0 b ∧ t.payMem = s.payMem.writeBytes 0 b ∧ t.payLen = BitVec.ofNat 32 b.length

theorem PayFollows.eq_of_same {s t : State} {q : Memory} (h : PayFollows s t s.payMem q) : q = t.payMem := by
  rcases h with ⟨hq, ht, -⟩ | ⟨b, hq, ht, -⟩ <;> rw [hq, ht]

/-- With `m`, `p` and `o` in the stores the command does the same: the same registers, the same bytes appended to `OUT`,
the same payload stored. -/
def RunsAlike (i : Instr) (s t : State) (m p : Memory) (o : List Byte) : Prop :=
  ∃ e q, t.out = s.out ++ e ∧ PayFollows s t p q ∧ (i ≠ .recParse → q = p) ∧
    CommandEffect (s.withStores m p o) i (t.withStores m q (o ++ e))

/-- A command that appends nothing and leaves `PAY` alone. -/
theorem RunsAlike.of_kept {i : Instr} {s t : State} {m p : Memory} {o : List Byte} (hout : t.out = s.out)
    (hpay : t.payMem = s.payMem) (hlen : t.payLen.toNat ≤ s.payLen.toNat)
    (h : CommandEffect (s.withStores m p o) i (t.withStores m p o)) : RunsAlike i s t m p o :=
  ⟨[], p, by simp [hout], .inl ⟨rfl, hpay, hlen⟩, fun _ => rfl, by simpa using h⟩

/-- A command depends on the bytes of `IN` and `PAY` that R52 has it read, and on nothing in `OUT`. Without a held
record only the two commands that read `PAY` up to `PAY_LEN` read it. -/
theorem CommandEffect.withStores {i : Instr} {s t : State} {m p : Memory} (o : List Byte) (h : CommandEffect s i t)
    (hin : ∀ a, ReadsIn i s a → m.read a = s.inMem.read a)
    (hpay : ∀ a, ReadsPay i s a → (s.held = false → i = .recBuild ∨ i = .crcPay) → p.read a = s.payMem.read a) :
    RunsAlike i s t m p o := by
  set u := s.withStores m p o
  have hu : SameTests s u := ⟨rfl, rfl, rfl, rfl, rfl, rfl⟩
  have hslice : ∀ n, (∀ a < n, ReadsPay i s a) → (s.held = false → i = .recBuild ∨ i = .crcPay) →
      p.slice 0 n = s.payMem.slice 0 n := fun n hn hheld =>
    Memory.slice_congr fun a _ ha => hpay a (hn a (by omega)) hheld
  cases h with
  | nop => exact .of_kept rfl rfl le_rfl .nop
  | sysReset => exact .of_kept rfl rfl (Nat.zero_le _) .sysReset
  | crcInit => exact .of_kept rfl rfl le_rfl .crcInit
  | crcByte b => exact .of_kept rfl rfl le_rfl (.crcByte b)
  | crcTyp => exact .of_kept rfl rfl le_rfl .crcTyp
  | crcFin => exact .of_kept rfl rfl le_rfl .crcFin
  | typeStrict hl hr => exact .of_kept rfl rfl le_rfl (.typeStrict hl hr)
  | typeRaw hl => exact .of_kept rfl rfl le_rfl (.typeRaw hl)
  | crcPay =>
    have hsame : u.payload = s.payload := hslice _ (fun a ha => .inl ⟨.inr rfl, ha⟩) fun _ => .inr rfl
    have heff : CommandEffect u .crcPay _ := .crcPay
    rw [hsame] at heff
    exact .of_kept rfl rfl le_rfl heff
  | crcVerify hheld =>
    have hsame : u.heldPayload = s.heldPayload :=
      hslice _ (fun a ha => .inr ⟨.inr rfl, ha⟩) (by simp [hheld])
    have heff : CommandEffect u .crcVerify _ := .crcVerify hheld
    rw [State.verifyRecord, State.heldAcc, hsame] at heff
    exact .of_kept rfl rfl le_rfl heff
  | recBuild htok =>
    have hsame : u.payload = s.payload := hslice _ (fun a ha => .inl ⟨.inl rfl, ha⟩) fun _ => .inl rfl
    have heff : CommandEffect u .recBuild _ := .recBuild htok
    rw [State.buildRecord, State.buildAcc, hsame] at heff
    exact .of_kept rfl rfl le_rfl heff
  | recEmit hheld =>
    have hsame : u.heldPayload = s.heldPayload :=
      hslice _ (fun a ha => .inr ⟨.inl rfl, ha⟩) (by simp [hheld])
    have heff : CommandEffect u .recEmit _ := .recEmit hheld
    rw [State.recordBytes, hsame] at heff
    exact ⟨s.recordBytes, p, rfl, .inl ⟨rfl, rfl, le_rfl⟩, fun _ => rfl, heff⟩
  | sigEmit => exact ⟨Config.signature, p, rfl, .inl ⟨rfl, rfl, le_rfl⟩, fun _ => rfl, .sigEmit⟩
  | sigCheck h8 hsig =>
    have hsame : (List.range 8).map (recByte u) = Config.signature := (sigBytes_congr hu h8 hin).trans hsig
    exact .of_kept rfl rfl le_rfl (.sigCheck h8 hsame)
  | @recParse r hparse =>
    have hsame : parseRecord u.strict u.remaining = .ok r := (parseRecord_congr hu hin).trans hparse
    have heff : CommandEffect u .recParse (u.commitParse r) := .recParse hsame
    refine ⟨[], p.writeBytes 0 r.pay, by simp [State.commitParse], .inr ⟨r.pay, rfl, rfl, rfl⟩,
      fun hi => absurd rfl hi, ?_⟩
    rw [List.append_nil]
    exact heff
  | fails hfail => exact .of_kept rfl rfl le_rfl (.fails (hfail.congr hu hin))

/-! ### Which stores a command writes (R27, R52) -/

theorem CommandEffect.inMem {i : Instr} {s t : State} (h : CommandEffect s i t) : t.inMem = s.inMem := by
  cases h <;> rfl

theorem CommandEffect.payMem {i : Instr} {s t : State} (h : CommandEffect s i t) (hi : i ≠ .recParse) :
    t.payMem = s.payMem := by
  cases h with
  | recParse _ => exact absurd rfl hi
  | _ => rfl

/-- `OUT` is appended to by the two emitting commands only, their record and their signature. -/
theorem CommandEffect.out {i : Instr} {s t : State} (h : CommandEffect s i t) :
    ∃ e, t.out = s.out ++ e ∧
      (e ≠ [] → (i = .recEmit ∧ e.length = 12 + s.len.toNat) ∨ (i = .sigEmit ∧ e.length = 8)) := by
  cases h with
  | recEmit _ => exact ⟨s.recordBytes, rfl, fun _ => .inl ⟨rfl, s.recordBytes_length⟩⟩
  | sigEmit => exact ⟨Config.signature, rfl, fun _ => .inr ⟨rfl, rfl⟩⟩
  | _ => exact ⟨[], (List.append_nil _).symm, absurd rfl⟩

end Sys2Proof.Machine

namespace Sys2Proof.Claims

open Sys2Proof.Machine

/-- Settles O45: the report is none of what made the command fail, and the second report is the first. -/
theorem aFailedCommandFailsAgain : Obligations.AFailedCommandFailsAgain := by
  intro i s t hexec herr
  rcases (exec_eq_next_iff.mp hexec).cleared_or_fails with ⟨hclear, -⟩ | ⟨f, hfail, rfl⟩
  · exact absurd hclear herr
  · have hagain : FailsBecause (s.fail f) i f := hfail.congr ⟨rfl, rfl, rfl, rfl, rfl, rfl⟩ fun _ _ => rfl
    exact hagain.exec_eq

/-- Settles O47: what each command leaves in the three stores. -/
theorem commandsWriteTheirStoresOnly : Obligations.CommandsWriteTheirStoresOnly := by
  intro i s t hexec
  have heff := exec_eq_next_iff.mp hexec
  exact ⟨fun a => by rw [heff.inMem], fun hi a => by rw [heff.payMem hi], heff.out⟩

/-- Settles O51: the command with the same `IN` and `PAY` and another `OUT`. -/
theorem outputNeverChangesACommandsResult : Obligations.OutputNeverChangesACommandsResult := by
  intro i s t hexec
  have heff := exec_eq_next_iff.mp hexec
  obtain ⟨e, hout, -⟩ := heff.out
  refine ⟨e, hout, fun o => ?_⟩
  obtain ⟨e', q, hout', hq, -, hrun⟩ := heff.withStores (m := s.inMem) (p := s.payMem) o (fun _ _ => rfl)
    fun _ _ _ => rfl
  obtain rfl : e' = e := List.append_cancel_left (hout'.symm.trans hout)
  rw [hq.eq_of_same] at hrun
  refine hrun.exec_eq.trans ?_
  rw [← heff.inMem]
  rfl

/-- Settles O56: the command with other bytes of `IN` and `PAY` outside the ranges read, and the same `OUT`. -/
theorem commandsReadTheirStoresOnly : Obligations.CommandsReadTheirStoresOnly := by
  intro i s t m p hexec hin hpay
  obtain ⟨e, q, hout, -, hq, hrun⟩ := (exec_eq_next_iff.mp hexec).withStores s.out hin fun a ha _ => hpay a ha
  refine ⟨t.withStores m q t.out, ?_, rfl, hq, rfl⟩
  rw [← hout] at hrun
  exact hrun.exec_eq

end Sys2Proof.Claims
end

section
/-! SUPPORT. What every step keeps (R18, R27, R28, R128): the cursor `RP`, the held record and `CRCOK`. -/

namespace Sys2Proof.Machine

open Sys2Proof.Claims

/-! ### The cursor `RP` (R18) -/

section Cursor

variable {s t : State} {i : Instr}

/-- What a parse takes, by whether the checksum was in the input (R141 steps 5 and 6). -/
theorem parseRecord_used_eq {strict : Bool} {inp : List Byte} {r : Parsed} (h : parseRecord strict inp = .ok r) :
    r.used = (if r.csrc = true then 12 else 8) + r.len.toNat := by
  obtain ⟨-, -, -, -, -, -, -, ⟨-, -, hsrc, hused, -⟩ | ⟨-, -, hsrc, hused⟩⟩ := parseRecord_ok h <;>
    simp [hsrc, hused]

theorem parseRecord_used_le {r : Parsed} (h : parseRecord s.strict s.remaining = .ok r) : r.used ≤ avail s := by
  rw [← s.remaining_length]
  exact (parseRecord_used h).2

theorem rp_add_avail {n : Nat} (h : n ≤ avail s) (hn : 0 < n) : s.rp.toNat + n ≤ s.inLen.toNat := by
  rw [avail] at h
  omega

theorem State.commitParse_rp_toNat {r : Parsed} (h : parseRecord s.strict s.remaining = .ok r) :
    (s.commitParse r).rp.toNat = s.rp.toNat + r.used :=
  State.advance_rp_toNat (parseRecord_used_le h)

/-- A successful parse takes at least 8 bytes, all of them in the input. -/
theorem State.commitParse_rp_le {r : Parsed} (h : parseRecord s.strict s.remaining = .ok r) :
    (s.commitParse r).rp.toNat ≤ s.inLen.toNat := by
  rw [State.commitParse_rp_toNat h]
  have hlow := (parseRecord_used h).1
  exact rp_add_avail (parseRecord_used_le h) (by omega)

/-- How far a command moves `RP`: not at all, back to 0, past the signature or past the record. -/
theorem CommandEffect.rp (h : CommandEffect s i t) :
    t.rp = s.rp ∨ (t.rp = 0#32 ∧ i = .sysReset ∧ t.err = 0#4) ∨
      (i = .sigCheck ∧ t.err = 0#4 ∧ t.rp.toNat = s.rp.toNat + 8 ∧ t.rp.toNat ≤ s.inLen.toNat) ∨
      (i = .recParse ∧ t.err = 0#4 ∧ t.rp.toNat = s.rp.toNat + (if t.csrc = true then 12 else 8) + t.len.toNat ∧
        t.rp.toNat ≤ s.inLen.toNat) := by
  cases h with
  | sysReset => exact .inr (.inl ⟨rfl, rfl, rfl⟩)
  | sigCheck h8 _ =>
    have hrp : (s.advance 8).commit.rp.toNat = s.rp.toNat + 8 := State.advance_rp_toNat h8
    exact .inr (.inr (.inl ⟨rfl, rfl, hrp, hrp ▸ rp_add_avail h8 (by decide)⟩))
  | @recParse r hparse =>
    refine .inr (.inr (.inr ⟨rfl, rfl, ?_, State.commitParse_rp_le hparse⟩))
    rw [State.commitParse_rp_toNat hparse, parseRecord_used_eq hparse, Nat.add_assoc]
    rfl
  | _ => exact .inl rfl

end Cursor

/-! ### The held record (R128, R140) -/

/-- The fields of the held record are as before. -/
def RecordKept (s t : State) : Prop :=
  t.len = s.len ∧ t.typ = s.typ ∧ t.heldPayload = s.heldPayload ∧ t.crc = s.crc

/-- `CRCOK` says whether the held record carries its computed checksum. -/
def CrcokSound (s : State) : Prop := s.crcok = true ↔ s.crc = s.heldChecksum

theorem RecordKept.heldChecksum {s t : State} (h : RecordKept s t) : t.heldChecksum = s.heldChecksum := by
  obtain ⟨-, htyp, hpay, -⟩ := h
  rw [State.heldChecksum, State.heldChecksum, State.typeBytes, State.typeBytes, htyp, hpay]

/-- What a step that does not parse or build leaves of a record: the same one, with the same source of its checksum,
`CRCOK` as before or compared anew. -/
def HoldsOn (s t : State) : Prop :=
  s.held = true ∧ RecordKept s t ∧ t.csrc = s.csrc ∧ (t.crcok = s.crcok ∨ CrcokSound t)

theorem State.verifyRecord_crcokSound (s : State) : CrcokSound s.verifyRecord := decide_eq_true_iff

/-- A record held after a command was parsed by it, built by it, or held before it. -/
theorem CommandEffect.held {s t : State} {i : Instr} (h : CommandEffect s i t) (ht : t.held = true) :
    (i = .recParse ∧ ∃ r, parseRecord s.strict s.remaining = .ok r ∧ t = s.commitParse r) ∨
      (i = .recBuild ∧ t = s.buildRecord) ∨ HoldsOn s t := by
  cases h with
  | sysReset | typeStrict _ _ | typeRaw _ => exact absurd ht Bool.false_ne_true
  | recParse hparse => exact .inl ⟨rfl, _, hparse, rfl⟩
  | recBuild _ => exact .inr (.inl ⟨rfl, rfl⟩)
  | crcVerify hheld => exact .inr (.inr ⟨hheld, ⟨rfl, rfl, rfl, rfl⟩, rfl, .inr s.verifyRecord_crcokSound⟩)
  | _ => exact .inr (.inr ⟨ht, ⟨rfl, rfl, rfl, rfl⟩, rfl, .inl rfl⟩)

/-- The same of a host action: the two commands are the only ones that make a record the held one. -/
theorem HostEffect.held {c : Config} {s t : State} {a : HostAction} (h : HostEffect c s a t) (ht : t.held = true) :
    (∃ w r, a = .writeReg 0 w ∧ decode w = .ok .recParse ∧ parseRecord s.strict s.remaining = .ok r ∧
        t = s.commitParse r) ∨
      (∃ w, a = .writeReg 0 w ∧ decode w = .ok .recBuild ∧ t = s.buildRecord) ∨ HoldsOn s t := by
  cases h with
  | command hd hcmd =>
    rcases hcmd.held ht with ⟨rfl, r, hparse, heq⟩ | ⟨rfl, heq⟩ | hon
    · exact .inl ⟨_, r, rfl, hd, hparse, heq⟩
    · exact .inr (.inl ⟨_, rfl, hd, heq⟩)
    · exact .inr (.inr hon)
  | loadPay _ | hardReset => exact absurd ht Bool.false_ne_true
  | _ => exact .inr (.inr ⟨ht, ⟨rfl, rfl, rfl, rfl⟩, rfl, .inl rfl⟩)

/-! ### The checksum of a record just parsed or built (R105) -/

/-- The payload that a load or a parse stores is `PAY[0..PAY_LEN)`. -/
theorem Memory.slice_writeBytes_zero {m : Memory} (hm : Memory.wf m) (b : List Byte) {n : Nat} (hn : b.length = n) :
    (m.writeBytes 0 b).slice 0 n = b := by
  subst hn
  exact Memory.slice_writeBytes b m 0 hm

section ParsedRecord

variable {s : State} {r : Parsed} (hparse : parseRecord s.strict s.remaining = .ok r) (hpay : Memory.wf s.payMem)

include hparse

/-- The type bytes held are those of the input, letters all. -/
theorem State.commitParse_typeBytes : (s.commitParse r).typeBytes = field s.remaining 4 4 := by
  obtain ⟨h8, -, -, htyp, -⟩ := parseRecord_ok hparse
  have h : r.typ = be32 (field s.remaining 4 4) := htyp
  have hlen : (field s.remaining 4 4).length = 4 := by rw [field_length]; omega
  rw [State.typeBytes]
  exact (congrArg bytesBe32 h).trans (bytesBe32_be32 _ hlen)

theorem State.commitParse_allLetters : AllLetters (s.commitParse r).typ := by
  obtain ⟨-, hletters, -⟩ := parseRecord_ok hparse
  rw [← letters_iff_allLetters, ← State.typeBytes, State.commitParse_typeBytes hparse]
  exact hletters

theorem State.commitParse_payLen : (s.commitParse r).payLen = (s.commitParse r).len := by
  change BitVec.ofNat 32 r.pay.length = r.len
  rw [parseRecord_pay_length hparse, BitVec.ofNat_toNat, BitVec.setWidth_eq]

include hpay

theorem State.commitParse_heldPayload : (s.commitParse r).heldPayload = r.pay :=
  Memory.slice_writeBytes_zero hpay r.pay (parseRecord_pay_length hparse)

/-- The accumulator of a parse is that of the record it holds. -/
theorem State.commitParse_heldChecksum : (s.commitParse r).heldChecksum = r.acc ^^^ Config.crcXorOut := by
  obtain ⟨-, -, -, -, -, -, hacc, -⟩ := parseRecord_ok hparse
  rw [State.heldChecksum, State.commitParse_heldPayload hparse hpay, State.commitParse_typeBytes hparse, ← crc32_eq,
    hacc]

theorem State.commitParse_crcokSound : CrcokSound (s.commitParse r) := by
  rw [CrcokSound, State.commitParse_heldChecksum hparse hpay]
  exact decide_eq_true_iff

/-- A record parsed under `STRICT`, or without a checksum in the input, carries its computed one. -/
theorem State.commitParse_crc (h : s.strict = true ∨ r.csrc = false) :
    (s.commitParse r).crc = (s.commitParse r).heldChecksum := by
  rw [State.commitParse_heldChecksum hparse hpay]
  change r.crc = _
  obtain ⟨-, -, -, -, -, -, -, ⟨-, -, hsrc, -, hstrict⟩ | ⟨-, hcrc, -⟩⟩ := parseRecord_ok hparse
  · exact hstrict (h.resolve_right (by simp [hsrc]))
  · exact hcrc

end ParsedRecord

/-- `REC.BUILD` computes the checksum of the record it holds. -/
theorem State.buildRecord_crc_eq (s : State) : s.buildRecord.crc = s.buildRecord.heldChecksum := rfl

theorem State.buildRecord_crcokSound (s : State) : CrcokSound s.buildRecord :=
  ⟨fun _ => s.buildRecord_crc_eq, fun _ => rfl⟩

/-- Whatever made a record the held one, `CRCOK` is right about it afterwards. -/
theorem HostEffect.crcokSound {c : Config} {s t : State} {a : HostAction} (h : HostEffect c s a t)
    (hpay : Memory.wf s.payMem) (hs : s.held = true → CrcokSound s) (ht : t.held = true) : CrcokSound t := by
  rcases h.held ht with ⟨w, r, -, -, hparse, rfl⟩ | ⟨w, -, -, rfl⟩ | ⟨hheld, hkept, -, hok | hok⟩
  · exact State.commitParse_crcokSound hparse hpay
  · exact s.buildRecord_crcokSound
  · obtain ⟨-, -, -, hcrc⟩ := id hkept
    rw [CrcokSound, hok, hcrc, hkept.heldChecksum]
    exact hs hheld
  · exact hok

/-! ### The same of a step -/

section StepHeld

variable {s t : State}

/-- The command that the step ran, where a command succeeded. -/
theorem effect_of_nextSucceeds {i : Instr} (h : NextSucceeds i s t) (hstep : step s = .next t) :
    ∃ r, CommandEffect (s.setPending r) i t ∧ t.err = 0#4 := by
  obtain ⟨w, r, hp, hd, herr⟩ := h
  exact ⟨r, exec_eq_next_iff.mp ((step_of_command hp hd).symm.trans hstep), herr⟩

/-- A record held after a step that neither parsed nor built is the one held before it. -/
theorem StepEffect.holdsOn (h : StepEffect s t) (ht : t.held = true) (hparse : ¬ NextSucceeds .recParse s t)
    (hbuild : ¬ NextSucceeds .recBuild s t) : HoldsOn s t := by
  cases h with
  | idle _ => exact ⟨ht, ⟨rfl, rfl, rfl, rfl⟩, rfl, .inl rfl⟩
  | acts hp hact =>
    rcases hact.held ht with ⟨w, r, rfl, hd, -, rfl⟩ | ⟨w, rfl, hd, rfl⟩ | hon
    · exact absurd ⟨w, _, hp, hd, rfl⟩ hparse
    · exact absurd ⟨w, _, hp, hd, rfl⟩ hbuild
    · exact hon

end StepHeld

end Sys2Proof.Machine

namespace Sys2Proof.Claims

open Sys2Proof.Machine

/-- Settles O48: of the host's actions a load, hardware reset and a command can move `RP`, each as its rule says. -/
theorem readCursorMovesOnlyAsStated : Obligations.ReadCursorMovesOnlyAsStated := by
  intro s t hstep
  cases step_eq_next_iff.mp hstep with
  | idle _ => exact .inl rfl
  | acts hp hact =>
    cases hact with
    | command hd hcmd =>
      rcases hcmd.rp with hrp | ⟨hrp, rfl, herr⟩ | ⟨rfl, herr, hrp⟩ | ⟨rfl, herr, hrp⟩
      · exact .inl hrp
      · exact .inr (.inl ⟨hrp, .inr (.inr ⟨_, _, hp, hd, herr⟩)⟩)
      · exact .inr (.inr (.inl ⟨⟨_, _, hp, hd, herr⟩, hrp⟩))
      · exact .inr (.inr (.inr ⟨⟨_, _, hp, hd, herr⟩, hrp⟩))
    | loadIn _ => exact .inr (.inl ⟨rfl, .inl ⟨_, _, hp⟩⟩)
    | hardReset => exact .inr (.inl ⟨rfl, .inr (.inl ⟨_, hp⟩)⟩)
    | _ => exact .inl rfl

/-- Settles O49: a record held after the step that the step did not parse or build is the record held before it. -/
theorem heldRecordIsImmutable : Obligations.HeldRecordIsImmutable := by
  intro s t hstep _ ht hparse hbuild
  obtain ⟨-, hkept, -⟩ := (step_eq_next_iff.mp hstep).holdsOn ht hparse hbuild
  exact hkept

/-- Settles O41: `CRCOK` is compared whenever a record becomes the held one, and neither changes alone afterwards. -/
theorem crcokTellsWhetherTheHeldRecordIsSound : Obligations.CrcokTellsWhetherTheHeldRecordIsSound := by
  intro s t hinv hs hstep ht
  cases step_eq_next_iff.mp hstep with
  | idle _ => exact hs ht
  | acts hp hact => exact hact.crcokSound hinv.pay_wf hs ht

end Sys2Proof.Claims
end

section
/-! SUPPORT. The invariants of R28: they hold at reset and every step keeps them. -/

namespace Sys2Proof.Machine

open Sys2Proof.Claims

/-! ### What the invariants speak of -/

theorem Memory.wf_nil : Memory.wf [] := ⟨.nil, nofun⟩

theorem Memory.within_nil (cap : Nat) : Memory.within [] cap := nofun

/-- (I-h) holds in every state: the reserved bits are none of the stored ones (R22, R25). -/
theorem State.reserved_zero (s : State) :
    s.status.extractLsb' 17 15 = 0#15 ∧ s.ctrl.extractLsb' 1 31 = 0#31 := by
  constructor
  · refine BitVec.eq_of_getLsbD_eq fun k _ => ?_
    simp [s.status_reserved (show 17 ≤ 17 + k by omega)]
  · exact BitVec.extractLsb'_append_eq_left

/-- The state with everything that no invariant speaks of at its reset value. -/
def State.invPart (s : State) : State :=
  { State.reset with
    held := s.held, tok := s.tok, csrc := s.csrc, crcok := s.crcok, typ := s.typ, len := s.len, crc := s.crc,
    rp := s.rp, inLen := s.inLen, payLen := s.payLen, inMem := s.inMem, payMem := s.payMem }

theorem inv_invPart {c : Config} {s : State} : Inv c s.invPart ↔ Inv c s :=
  ⟨fun h => ⟨h.rp_le, h.inLen_le, h.payLen_le, h.held_len, h.held_tok, h.tok_letters, h.computed, h.dropped,
      s.reserved_zero, h.in_wf, h.pay_wf, h.in_within, h.pay_within⟩,
    fun h => ⟨h.rp_le, h.inLen_le, h.payLen_le, h.held_len, h.held_tok, h.tok_letters, h.computed, h.dropped,
      s.invPart.reserved_zero, h.in_wf, h.pay_wf, h.in_within, h.pay_within⟩⟩

section Preserved

variable {c : Config} {s t : State}

/-- A state that differs in nothing the invariants speak of meets them too. -/
theorem Inv.of_invPart_eq (h : Inv c s) (heq : t.invPart = s.invPart) : Inv c t :=
  inv_invPart.mp (heq ▸ inv_invPart.mpr h)

/-- The invariants of a state without a record, given those of its registers and storage. -/
theorem Inv.of_not_held (hheld : t.held = false) (hcsrc : t.csrc = false) (hcrcok : t.crcok = false)
    (hrp : t.rp.toNat ≤ t.inLen.toNat) (hinLen : t.inLen.toNat ≤ c.inCap) (hpayLen : t.payLen.toNat ≤ c.payCap)
    (htok : t.tok = true → ∀ i, isLetter (typeByte t.typ i) = true) (hin : Memory.wf t.inMem)
    (hpay : Memory.wf t.payMem) (hinCap : Memory.within t.inMem c.inCap) (hpayCap : Memory.within t.payMem c.payCap) :
    Inv c t where
  rp_le := hrp
  inLen_le := hinLen
  payLen_le := hpayLen
  held_len h := absurd (hheld.symm.trans h) Bool.false_ne_true
  held_tok h := absurd (hheld.symm.trans h) Bool.false_ne_true
  tok_letters := htok
  computed h := absurd (hheld.symm.trans h) Bool.false_ne_true
  dropped _ := ⟨hcsrc, hcrcok⟩
  reserved := t.reserved_zero
  in_wf := hin
  pay_wf := hpay
  in_within := hinCap
  pay_within := hpayCap

theorem isLetter_of_allLetters {v : Word} (h : AllLetters v) (i : Fin 4) : isLetter (typeByte v i) = true :=
  (isLetter_iff _).mpr (h i)

/-! ### The writes of the commands -/

theorem Inv.reset (h : Inv c s) : Inv c s.resetRegisters :=
  .of_not_held rfl rfl rfl (Nat.zero_le _) (Nat.zero_le _) (Nat.zero_le _) nofun h.in_wf h.pay_wf h.in_within
    h.pay_within

theorem Inv.takeTypeCode (h : Inv c s) (hl : AllLetters s.tin) : Inv c s.takeTypeCode :=
  .of_not_held rfl rfl rfl h.rp_le h.inLen_le h.payLen_le (fun _ => isLetter_of_allLetters hl) h.in_wf h.pay_wf
    h.in_within h.pay_within

/-- `CRC.VERIFY` writes `CRCOK` while a record is held, of which (I-g) says nothing. -/
theorem Inv.verifyRecord (h : Inv c s) (hheld : s.held = true) : Inv c s.verifyRecord :=
  { h with
    dropped := fun hnot => absurd (hheld.symm.trans hnot) nofun
    reserved := State.reserved_zero _ }

theorem Inv.buildRecord (h : Inv c s) (htok : s.tok = true) : Inv c s.buildRecord :=
  { h with
    held_len := fun _ => rfl
    held_tok := fun _ => htok
    computed := fun _ _ => s.buildRecord_crc_eq
    dropped := nofun
    reserved := State.reserved_zero _ }

/-- The payload of a record in the input fits `PAY` (R6). -/
theorem Inv.parsed_pay_le (hc : c.wf = true) (h : Inv c s) {r : Parsed}
    (hparse : parseRecord s.strict s.remaining = .ok r) : r.pay.length ≤ c.payCap := by
  obtain ⟨-, -, hcap, -⟩ := Config.wf_bounds hc
  have hinLen := h.inLen_le
  have hused := parseRecord_used_le hparse
  have hlow := (parseRecord_used hparse).1
  rw [avail] at hused
  rw [parseRecord_pay_length hparse]
  omega

theorem Inv.commitParse (hc : c.wf = true) (h : Inv c s) {r : Parsed}
    (hparse : parseRecord s.strict s.remaining = .ok r) : Inv c (s.commitParse r) where
  rp_le := State.commitParse_rp_le hparse
  inLen_le := h.inLen_le
  payLen_le := by
    rw [State.commitParse_payLen hparse]
    change r.len.toNat ≤ _
    rw [← parseRecord_pay_length hparse]
    exact h.parsed_pay_le hc hparse
  held_len _ := (State.commitParse_payLen hparse).symm
  held_tok _ := rfl
  tok_letters _ := isLetter_of_allLetters (State.commitParse_allLetters hparse)
  computed _ hsrc := State.commitParse_crc hparse h.pay_wf (.inr hsrc)
  dropped := nofun
  reserved := State.reserved_zero _
  in_wf := h.in_wf
  pay_wf := Memory.writeBytes_wf r.pay s.payMem 0 h.pay_wf
  in_within := h.in_within
  pay_within := Memory.writeBytes_within r.pay s.payMem _ 0 h.pay_within
    (by rw [Nat.zero_add]; exact h.parsed_pay_le hc hparse)

theorem Inv.advance (h : Inv c s) {n : Nat} (hn : n ≤ avail s) : Inv c (s.advance n) :=
  { h with
    rp_le := by
      have hrp := h.rp_le
      rw [State.advance_rp_toNat hn, State.advance_inLen]
      rw [avail] at hn
      omega }

/-! ### The loads of the host (R174, R175) -/

theorem toNat_ofNat_of_le {n cap : Nat} (h : n ≤ cap) (hcap : cap ≤ 2 ^ 32 - 1) : (BitVec.ofNat 32 n).toNat = n := by
  rw [BitVec.toNat_ofNat, Nat.mod_eq_of_lt (by omega)]

theorem Inv.storeInput (hc : c.wf = true) (h : Inv c s) {b : List Byte} (hfit : b.length ≤ c.inCap) :
    Inv c (s.storeInput b) :=
  { h with
    rp_le := Nat.zero_le _
    inLen_le := by
      obtain ⟨-, hcap, -⟩ := Config.wf_bounds hc
      rwa [State.storeInput_inLen, toNat_ofNat_of_le hfit hcap]
    in_wf := Memory.writeBytes_wf b s.inMem 0 h.in_wf
    in_within := Memory.writeBytes_within b s.inMem _ 0 h.in_within (by rwa [Nat.zero_add]) }

theorem Inv.loadPay (hc : c.wf = true) (h : Inv c s) {b : List Byte} (hfit : b.length ≤ c.payCap) :
    Inv c (s.storePayload b).dropRecord := by
  obtain ⟨-, -, -, hcap⟩ := Config.wf_bounds hc
  have hlen : (BitVec.ofNat 32 b.length).toNat ≤ c.payCap := by rwa [toNat_ofNat_of_le hfit hcap]
  exact .of_not_held rfl rfl rfl h.rp_le h.inLen_le hlen h.tok_letters h.in_wf
    (Memory.writeBytes_wf b s.payMem 0 h.pay_wf) h.in_within
    (Memory.writeBytes_within b s.payMem _ 0 h.pay_within (by rwa [Nat.zero_add]))

/-! ### Commands and host actions -/

theorem CommandEffect.inv (hc : c.wf = true) {i : Instr} (heff : CommandEffect s i t) (h : Inv c s) : Inv c t := by
  cases heff with
  | sysReset => exact h.reset
  | crcVerify hheld => exact h.verifyRecord hheld
  | typeStrict hl _ | typeRaw hl => exact h.takeTypeCode hl
  | recParse hparse => exact h.commitParse hc hparse
  | recBuild htok => exact h.buildRecord htok
  | sigCheck h8 _ => exact (h.advance h8).of_invPart_eq rfl
  | _ => exact h.of_invPart_eq rfl

theorem HostEffect.inv (hc : c.wf = true) {a : HostAction} (heff : HostEffect c s a t) (h : Inv c s) : Inv c t := by
  cases heff with
  | command _ hcmd => exact hcmd.inv hc h
  | loadIn hfit => exact h.storeInput hc hfit
  | loadPay hfit => exact h.loadPay hc hfit
  | hardReset => exact h.reset.of_invPart_eq rfl
  | _ => exact h.of_invPart_eq rfl

/-! ### The judged record (I-f) -/

/-- A record parsed is judged as `STRICT` was 1 or not. -/
theorem nextJudged_of_parse {judged : Bool} {w : Word} {r : List HostAction} (hp : s.pending = .writeReg 0 w :: r)
    (hd : decode w = .ok .recParse) (herr : t.err = 0#4) : nextJudged judged s t = s.strict := by
  simp [nextJudged, hp, hd, herr]

/-- Only a successful parse or build can make a record judged that was not. -/
theorem nextJudged_le {judged : Bool} (hparse : ¬ NextSucceeds .recParse s t) (hbuild : ¬ NextSucceeds .recBuild s t)
    (h : nextJudged judged s t = true) : judged = true := by
  unfold nextJudged at h
  split at h
  · rename_i w r hp
    split at h
    · rename_i hd
      rwa [if_neg fun herr => hparse ⟨w, r, hp, hd, herr⟩] at h
    · rename_i hd
      rwa [if_neg fun herr => hbuild ⟨w, r, hp, hd, herr⟩] at h
    · exact h
  · exact h

/-- A successful parse holds the record found. -/
theorem CommandEffect.eq_commitParse (h : CommandEffect s .recParse t) (herr : t.err = 0#4) :
    ∃ r, parseRecord s.strict s.remaining = .ok r ∧ t = s.commitParse r := by
  cases h with
  | recParse hparse => exact ⟨_, hparse, rfl⟩
  | fails _ => exact absurd herr (ErrorName.code_ne_zero _)

theorem CommandEffect.eq_buildRecord (h : CommandEffect s .recBuild t) (herr : t.err = 0#4) : t = s.buildRecord := by
  cases h with
  | recBuild _ => rfl
  | fails _ => exact absurd herr (ErrorName.code_ne_zero _)

/-- A step keeps (I-f): a record parsed under `STRICT` or built carries its computed checksum, and one held on carries
the checksum it had. -/
theorem judged_step {judged : Bool} (hpay : Memory.wf s.payMem) (h : Judged judged s) (hstep : step s = .next t) :
    Judged (nextJudged judged s t) t := by
  intro ht hj
  by_cases hparse : NextSucceeds .recParse s t
  · obtain ⟨r, heff, herr⟩ := effect_of_nextSucceeds hparse hstep
    obtain ⟨w, q, hp, hd, -⟩ := hparse
    rw [nextJudged_of_parse hp hd herr] at hj
    obtain ⟨found, hfound, rfl⟩ := heff.eq_commitParse herr
    exact State.commitParse_crc hfound hpay (.inl hj)
  by_cases hbuild : NextSucceeds .recBuild s t
  · obtain ⟨r, heff, herr⟩ := effect_of_nextSucceeds hbuild hstep
    rw [heff.eq_buildRecord herr]
    exact State.buildRecord_crc_eq _
  · obtain ⟨hheld, hkept, -⟩ := (step_eq_next_iff.mp hstep).holdsOn ht hparse hbuild
    obtain ⟨-, -, -, hcrc⟩ := id hkept
    rw [hcrc, hkept.heldChecksum]
    exact h hheld (nextJudged_le hparse hbuild hj)

end Preserved

end Sys2Proof.Machine

namespace Sys2Proof.Claims

open Sys2Proof.Machine

/-- Settles O39: at reset no record is held, both lengths and `RP` are 0 and nothing is stored. -/
theorem invariantsHoldAtReset : Obligations.InvariantsHoldAtReset :=
  fun _ _ => ⟨.of_not_held rfl rfl rfl (Nat.zero_le _) (Nat.zero_le _) (Nat.zero_le _) nofun Memory.wf_nil Memory.wf_nil
    (Memory.within_nil _) (Memory.within_nil _), nofun⟩

/-- Settles O40: an action keeps the invariants, whatever the list of actions is, and (I-f) by what the step did to the
held record. -/
theorem everyStepKeepsTheInvariants : Obligations.EveryStepKeepsTheInvariants := by
  refine fun s t judged hinv hjudged hstep => ⟨?_, judged_step hinv.pay_wf hjudged hstep⟩
  cases step_eq_next_iff.mp hstep with
  | idle _ => exact hinv
  | acts hp hact => exact hact.inv Config.machine_wf (hinv.of_invPart_eq rfl)

end Sys2Proof.Claims
end

section
/-! SUPPORT. The bytes of `IN` at or beyond `IN_LEN` and of `PAY` at or beyond `PAY_LEN` (R27, log 4): a step is the
same whatever they are, and leaves the bytes below the lengths the same. -/

namespace Sys2Proof.Machine

open Sys2Proof.Claims

/-! ### Storages that agree below a length -/

/-- The two storages hold the same bytes below offset `n`. -/
def AgreeBelow (n : Nat) (m m' : Memory) : Prop := ∀ a < n, m.read a = m'.read a

theorem AgreeBelow.mono {n k : Nat} {m m' : Memory} (h : AgreeBelow n m m') (hk : k ≤ n) : AgreeBelow k m m' :=
  fun a ha => h a (Nat.lt_of_lt_of_le ha hk)

theorem AgreeBelow.slice {n : Nat} {m m' : Memory} (h : AgreeBelow n m m') : m.slice 0 n = m'.slice 0 n :=
  Memory.slice_congr fun a _ ha => h a (by omega)

/-- What a load stores does not depend on what was there. -/
theorem agreeBelow_writeBytes {m m' : Memory} (b : List Byte) (hm : Memory.wf m) (hm' : Memory.wf m') :
    AgreeBelow (BitVec.ofNat 32 b.length).toNat (m.writeBytes 0 b) (m'.writeBytes 0 b) := by
  intro a ha
  have hlen : a < b.length := Nat.lt_of_lt_of_le ha (by rw [BitVec.toNat_ofNat]; exact Nat.mod_le _ _)
  rw [← Nat.zero_add a, Memory.read_writeBytes_of_mem b m 0 a hm hlen, Memory.read_writeBytes_of_mem b m' 0 a hm' hlen]

theorem PayFollows.agreeBelow {s t : State} {p q : Memory} (h : PayFollows s t p q) (hs : Memory.wf s.payMem)
    (hp : Memory.wf p) (hagree : AgreeBelow s.payLen.toNat p s.payMem) : AgreeBelow t.payLen.toNat q t.payMem := by
  rcases h with ⟨rfl, hpay, hlen⟩ | ⟨b, rfl, hpay, hlen⟩
  · rw [hpay]
    exact hagree.mono hlen
  · rw [hpay, hlen]
    exact agreeBelow_writeBytes b hp hs

/-! ### The relation of the claim -/

/-- Two states that differ in bytes without value alone differ in their storage alone. -/
theorem sameReadable_iff {s t : State} : SameReadable s t ↔
    t = s.withStores t.inMem t.payMem s.out ∧ AgreeBelow s.inLen.toNat t.inMem s.inMem ∧
      AgreeBelow s.payLen.toNat t.payMem s.payMem := by
  constructor
  · rintro ⟨hrest, hin, hpay⟩
    have heq := congrArg (fun x : State => x.withStores t.inMem t.payMem x.out) hrest
    exact ⟨heq, hin, hpay⟩
  · rintro ⟨heq, hin, hpay⟩
    exact ⟨congrArg (fun x : State => { x with inMem := s.inMem, payMem := s.payMem }) heq, hin, hpay⟩

section WithoutValue

variable {c : Config} {s t : State} {m p : Memory}

theorem sameReadable_withStores {q n : Memory} (hin : AgreeBelow t.inLen.toNat n t.inMem)
    (hpay : AgreeBelow t.payLen.toNat q t.payMem) : SameReadable t (t.withStores n q t.out) :=
  ⟨rfl, hin, hpay⟩

theorem CommandEffect.inLen_le {i : Instr} (h : CommandEffect s i t) : t.inLen.toNat ≤ s.inLen.toNat := by
  cases h with
  | sysReset => exact Nat.zero_le _
  | _ => exact le_rfl

/-- No command reads `PAY` at or beyond `PAY_LEN`: while a record is held, `LEN` is `PAY_LEN` (I-c). -/
theorem Inv.readsPay_lt (h : Inv c s) {i : Instr} {a : Nat} (ha : ReadsPay i s a)
    (hheld : s.held = false → i = .recBuild ∨ i = .crcPay) : a < s.payLen.toNat := by
  rcases ha with ⟨-, ha⟩ | ⟨hi, ha⟩
  · exact ha
  · cases hs : s.held with
    | true => rwa [← h.held_len hs]
    | false => rcases hi with rfl | rfl <;> simpa using hheld hs

variable (hinv : Inv c s) (hm : Memory.wf m) (hp : Memory.wf p) (hin : AgreeBelow s.inLen.toNat m s.inMem)
  (hpay : AgreeBelow s.payLen.toNat p s.payMem)

include hinv hp hin hpay

theorem CommandEffect.sameReadable {i : Instr} (h : CommandEffect s i t) :
    ∃ t', CommandEffect (s.withStores m p s.out) i t' ∧ SameReadable t t' := by
  obtain ⟨e, q, hout, hq, -, hrun⟩ := h.withStores s.out (fun a ha => hin a ha.2.1)
    fun a ha hheld => hpay a (hinv.readsPay_lt ha hheld)
  rw [← hout] at hrun
  refine ⟨_, hrun, sameReadable_withStores ?_ (hq.agreeBelow hinv.pay_wf hp hpay)⟩
  rw [h.inMem]
  exact hin.mono h.inLen_le

include hm

theorem HostEffect.sameReadable {a : HostAction} (h : HostEffect c s a t) :
    ∃ t', HostEffect c (s.withStores m p s.out) a t' ∧ SameReadable t t' := by
  cases h with
  | readReg n => exact ⟨_, .readReg n, rfl, hin, hpay⟩
  | command hd hcmd =>
    obtain ⟨t', heff, hsame⟩ := hcmd.sameReadable hinv hp hin hpay
    exact ⟨t', .command hd heff, hsame⟩
  | illegal hd => exact ⟨_, .illegal hd, rfl, hin, hpay⟩
  | writeCtrl v => exact ⟨_, .writeCtrl v, rfl, hin, hpay⟩
  | writeTin v => exact ⟨_, .writeTin v, rfl, hin, hpay⟩
  | writeOther v hn => exact ⟨_, .writeOther v hn, rfl, hin, hpay⟩
  | loadIn hfit => exact ⟨_, .loadIn hfit, rfl, agreeBelow_writeBytes _ hm hinv.in_wf, hpay⟩
  | loadPay hfit => exact ⟨_, .loadPay hfit, rfl, hin, agreeBelow_writeBytes _ hp hinv.pay_wf⟩
  | readPay =>
    have hsame : (s.withStores m p s.out).payload = s.payload := hpay.slice
    refine ⟨_, .readPay, ?_⟩
    rw [hsame]
    exact ⟨rfl, hin, hpay⟩
  | drainOut hk => exact ⟨_, .drainOut hk, rfl, hin, hpay⟩
  | hardReset => exact ⟨_, .hardReset, rfl, hin.mono (Nat.zero_le _), hpay.mono (Nat.zero_le _)⟩

end WithoutValue

end Sys2Proof.Machine

namespace Sys2Proof.Claims

open Sys2Proof.Machine

/-- Settles O50: the action happens in the other state as well, reads no byte without value, and leaves the bytes below
the lengths the same. -/
theorem bytesWithoutValueAreNeverRead : Obligations.BytesWithoutValueAreNeverRead := by
  intro s t s' hs ht hsame hstep
  cases step_eq_next_iff.mp hstep with
  | idle hp =>
    have hpt : t.pending = [] := (congrArg State.pending hsame.rest).trans hp
    exact ⟨t, step_of_idle hpt, hsame⟩
  | @acts a r _ hp hact =>
    obtain ⟨heq, hin, hpay⟩ := sameReadable_iff.mp hsame
    have hinv : Inv Config.machine (s.setPending r) := hs.of_invPart_eq rfl
    obtain ⟨t', heff, hsame'⟩ := hact.sameReadable hinv ht.in_wf ht.pay_wf hin hpay
    have hpt : t.pending = a :: r := (congrArg State.pending hsame.rest).trans hp
    have hset : t.setPending r = (s.setPending r).withStores t.inMem t.payMem s.out :=
      congrArg (State.setPending · r) heq
    exact ⟨t', step_eq_next_iff.mpr (.acts hpt (hset ▸ heff)), hsame'⟩

end Sys2Proof.Claims
end

section
/-! SUPPORT. The byte step as a bijection, the fold over a concatenation (R104), and the checksum by hand (R111, R113). -/

namespace Sys2Proof.Machine

open Sys2Proof.Claims

/-! ### The step as a bijection (R104) -/

theorem crcAcc_append (a : Word) (s t : List Byte) : crcAcc a (s ++ t) = crcAcc (crcAcc a s) t := List.foldl_append

/-- Where a shift gives 0, it was of 0: had the polynomial been added, its top bit would be left. -/
theorem eq_zero_of_crcShift_eq_zero {x : Word} (h : crcShift x = 0#32) : x = 0#32 := by
  have hlow : x.getLsbD 0 = false := by
    by_contra hset
    rw [crcShift, if_pos (by simpa using hset)] at h
    have htop : (x >>> 1 ^^^ Config.crcPoly).getLsbD 31 = false := by rw [h]; rfl
    simp [Config.crcPoly] at htop
  rw [crcShift, hlow, if_neg Bool.false_ne_true] at h
  refine BitVec.eq_of_getLsbD_eq fun k hk => ?_
  rw [BitVec.getLsbD_zero]
  cases k with
  | zero => exact hlow
  | succ k =>
    have hbit : (x >>> 1).getLsbD k = false := by rw [h, BitVec.getLsbD_zero]
    rwa [BitVec.getLsbD_ushiftRight, Nat.add_comm] at hbit

theorem crcShift_injective : Function.Injective crcShift := by
  intro x y h
  refine BitVec.xor_eq_zero_iff.mp (eq_zero_of_crcShift_eq_zero ?_)
  rw [crcShift_xor, h, BitVec.xor_self]

theorem repeat_crcShift_injective (n : Nat) : Function.Injective (Nat.repeat crcShift n) := by
  induction n with
  | zero => exact Function.injective_id
  | succ n ih => exact crcShift_injective.comp ih

theorem crcStep_injective (b : Byte) : Function.Injective fun a : Word => crcStep a b := by
  intro a a' h
  have hxor : a ^^^ b.zeroExtend 32 = a' ^^^ b.zeroExtend 32 := repeat_crcShift_injective 8 h
  simpa using hxor

/-! ### Runs of command words (R84) -/

theorem core_run_of_step {M : Host.Core} {k : Nat} {s t : M.State} (h : M.step s = .next t) :
    M.run (k + 1) s = M.run k t := by
  rw [Host.Core.run, h]

theorem core_run_zero (s : State) : Sys2Proof.core.run 0 s = .next s := rfl

/-- A run whose first pending action is a command's word runs that command first. -/
theorem core_run_command {k : Nat} {s t : State} {i : Instr} {r : List HostAction}
    (hp : s.pending = .writeReg 0 (encode i) :: r) (h : exec i (s.setPending r) = .next t) :
    Sys2Proof.core.run (k + 1) s = Sys2Proof.core.run k t :=
  core_run_of_step ((step_of_command hp (decode_encode i)).trans h)

/-- A held record whose computed checksum was `a`, complemented, and is still in `CRC`. -/
def HoldsComputed (a : Word) (s : State) : Prop := s.held = true ∧ s.heldAcc = a ∧ s.crc = a ^^^ Config.crcXorOut

theorem State.buildRecord_holdsComputed (s : State) : HoldsComputed s.buildRecord.acc s.buildRecord := ⟨rfl, rfl, rfl⟩

/-- `CRC.BYTE` leaves the held record alone, however often it runs. -/
theorem holdsComputed_of_crcBytes {a : Word} (b : List Byte) : ∀ {s u : State},
    Sys2Proof.core.run b.length s = .next u →
    s.pending = (expandCrcBytes b).map (fun i => .writeReg 0 (encode i)) → HoldsComputed a s → HoldsComputed a u := by
  induction b with
  | nil =>
    intro s u hrun _ hs
    cases hrun
    exact hs
  | cons x b ih =>
    intro s u hrun hp hs
    rw [List.length_cons, core_run_command hp rfl] at hrun
    exact ih hrun rfl hs

theorem exec_crcVerify_of_holdsComputed {a : Word} {s : State} (h : HoldsComputed a s) :
    ∃ v, exec .crcVerify s = .next v ∧ v.crcok = true ∧ v.ccrc = a ^^^ Config.crcXorOut ∧ v.acc = a := by
  obtain ⟨hheld, rfl, hcrc⟩ := h
  exact ⟨_, exec_crcVerify_of_held hheld, by simp [hcrc], rfl, rfl⟩

/-- What the four commands of `CRC.REC` compute (R113). -/
theorem crcRec_ccrc (s : State) :
    crcAcc (crcAcc Config.crcInit s.typeBytes) s.payload ^^^ Config.crcXorOut =
      crc32 (bytesBe32 s.typ ++ payBytes s s.payLen.toNat) := by
  rw [← crcAcc_append, crc32_eq, s.payload_eq_payBytes, State.typeBytes]

end Sys2Proof.Machine

namespace Sys2Proof.Claims

open Sys2Proof.Machine

/-- Settles O17: the table form of the step, and seven entries of the table evaluated. -/
theorem tableFormEqualsBitwiseForm : Obligations.TableFormEqualsBitwiseForm := by
  refine ⟨crcStep_eq_crcTable, fun _ => rfl, ?_⟩
  decide +kernel

/-- Settles O18: an injective map of the finitely many words to themselves is a bijection. -/
theorem crcStepIsABijection : Obligations.CrcStepIsABijection :=
  ⟨crcAcc_append, fun b => Finite.injective_iff_bijective.mp (crcStep_injective b)⟩

/-- Settles O16: `CRC.BYTE` commands do not touch the record built, whose checksum `CRC.VERIFY` computes again. -/
theorem verifyAfterBuildConfirms : Obligations.VerifyAfterBuildConfirms := by
  intro s t u b htok hbuild hrun
  rw [exec_recBuild_of_tok htok] at hbuild
  cases hbuild
  exact exec_crcVerify_of_holdsComputed (holdsComputed_of_crcBytes b hrun rfl s.buildRecord_holdsComputed)

/-- Settles O20: the four commands one after the other; `REC.BUILD` folds the same bytes at once. -/
theorem manualCrcEqualsTheBuiltOne : Obligations.ManualCrcEqualsTheBuiltOne := by
  intro s r hp
  refine ⟨_, (core_run_command hp rfl).trans <| (core_run_command rfl rfl).trans <| (core_run_command rfl rfl).trans <|
    (core_run_command rfl rfl).trans <| core_run_zero _, rfl, crcRec_ccrc s, fun htok => ⟨s.buildRecord,
    exec_recBuild_of_tok htok, ?_, ?_⟩⟩
  · exact s.buildRecord_crc.trans (crcRec_ccrc s).symm
  · exact s.buildRecord_crc.trans (crcRec_ccrc s).symm

end Sys2Proof.Claims
end

section
/-! SUPPORT. The class bits of a type code (R124), and the host's text, chunks and sequences (R180 to R192). -/

namespace Sys2Proof.Machine

open Sys2Proof.Claims

/-! ### Exclusive-or on a type code (R124) -/

theorem typeByte_xor (v m : Word) (i : Fin 4) : typeByte (v ^^^ m) i = typeByte v i ^^^ typeByte m i := by
  fin_cases i <;> exact BitVec.extractLsb'_xor

theorem isCritical_xor (v m : Word) : isCritical (v ^^^ m) = (isCritical v ^^ m.getLsbD 29) := by
  simp [isCritical_eq_bit]

theorem isPublic_xor (v m : Word) : isPublic (v ^^^ m) = (isPublic v ^^ m.getLsbD 21) := by
  simp [isPublic_eq_bit]

theorem rsvOk_xor (v m : Word) : rsvOk (v ^^^ m) = (rsvOk v ^^ m.getLsbD 13) := by
  simp [rsvOk_eq_bit]

theorem isSafeToCopy_xor (v m : Word) : isSafeToCopy (v ^^^ m) = (isSafeToCopy v ^^ m.getLsbD 5) := by
  simp [isSafeToCopy_eq_bit]

/-- `0x20` is the difference between a capital and a small letter. -/
theorem isLetter_xor_case : ∀ b : Byte, isLetter (b ^^^ 0x20#8) = isLetter b := by decide +kernel

theorem asciiLetter_xor_case {b m : Byte} (hm : m = 0#8 ∨ m = 0x20#8) : AsciiLetter (b ^^^ m) ↔ AsciiLetter b := by
  rcases hm with rfl | rfl
  · rw [BitVec.xor_zero]
  · rw [← isLetter_iff, isLetter_xor_case, isLetter_iff]

/-- Changing the case of some of the bytes leaves letters letters. -/
theorem allLetters_xor_case {m : Word} (hm : ∀ i, typeByte m i = 0#8 ∨ typeByte m i = 0x20#8) (v : Word) :
    AllLetters (v ^^^ m) ↔ AllLetters v :=
  forall_congr' fun i => by rw [typeByte_xor, asciiLetter_xor_case (hm i)]

/-! ### Text of four characters as a type code (R180, R183) -/

section Text

variable {text : List Char}

theorem bytesBe32_textWord (h4 : text.length = 4) :
    bytesBe32 (textWord text) = text.map fun ch => BitVec.ofNat 8 ch.toNat :=
  bytesBe32_be32 _ (by rw [List.length_map, h4])

theorem allLetters_textWord (h4 : text.length = 4) :
    AllLetters (textWord text) ↔ ∀ ch ∈ text, AsciiLetter (BitVec.ofNat 8 ch.toNat) := by
  rw [← letters_iff_allLetters, bytesBe32_textWord h4, letters_iff_forall, List.forall_mem_map]

/-- A character of one byte is that byte's. -/
theorem char_ofNat_byte {ch : Char} (h : ch.toNat < 256) : Char.ofNat (BitVec.ofNat 8 ch.toNat).toNat = ch := by
  rw [BitVec.toNat_ofNat, Nat.mod_eq_of_lt h, Char.ofNat_toNat]

theorem renderAsText_textWord (h4 : text.length = 4) (h : ∀ ch ∈ text, ch.toNat < 256) :
    renderAsText (textWord text) = text := by
  rw [renderAsText, bytesBe32_textWord h4, List.map_map]
  exact (List.map_congr_left fun ch hch => char_ofNat_byte (h ch hch)).trans (List.map_id text)

variable {r : TypeRoute} {s t : State}

/-- Four characters that fit a byte reach the block: the route's command tells the rest. -/
theorem textToTypeCode_of_exec (h4 : text.length = 4) (h : ∀ ch ∈ text, ch.toNat < 256)
    (hexec : exec r.command (s.setTin (textWord text)) = .next t) :
    textToTypeCode r text s =
      if t.err = 0#4 then .next (.typeCode t.typ, t)
      else if t.err = ErrorName.code .reservedBitSet then .next (.failed .reservedBitSet, t)
      else .next (.failed .invalidTypeByte, t) := by
  have hany : text.any (fun ch => decide (255 < ch.toNat)) = false := by
    rw [List.any_eq_false]
    intro ch hch
    have := h ch hch
    simp only [decide_eq_true_eq]
    omega
  rw [textToTypeCode, if_neg (by omega), if_neg (by omega), hany, if_neg Bool.false_ne_true]
  change andThen (exec r.command (s.setTin (textWord text))) _ = _
  rw [hexec, andThen_next]

theorem textToTypeCode_of_wide (h4 : text.length = 4) (h : ∃ ch ∈ text, 255 < ch.toNat) :
    textToTypeCode r text s = .next (.failed .invalidTypeByte, s) := by
  have hany : text.any (fun ch => decide (255 < ch.toNat)) = true := by simpa using h
  rw [textToTypeCode, if_neg (by omega), if_neg (by omega), if_pos hany]

/-- Letters become the held type code, by the raw route always and by the strict one with the reserved bit clear. -/
theorem textToTypeCode_of_letters (h4 : text.length = 4)
    (h : ∀ ch ∈ text, ch.toNat < 256 ∧ AsciiLetter (BitVec.ofNat 8 ch.toNat))
    (hr : r = .raw ∨ (textWord text).getLsbD 13 = false) :
    textToTypeCode r text s = .next (.typeCode (textWord text), (s.setTin (textWord text)).takeTypeCode) := by
  have hl : AllLetters (s.setTin (textWord text)).tin := (allLetters_textWord h4).mpr fun ch hch => (h ch hch).2
  have hexec : exec r.command (s.setTin (textWord text)) = .next (s.setTin (textWord text)).takeTypeCode := by
    cases r with
    | raw => exact exec_typeRaw_of_letters hl
    | strict => exact exec_typeStrict_of_valid hl (hr.resolve_left nofun)
  rw [textToTypeCode_of_exec h4 (fun ch hch => (h ch hch).1) hexec]
  rfl

theorem textToTypeCode_of_reserved (h4 : text.length = 4)
    (h : ∀ ch ∈ text, ch.toNat < 256 ∧ AsciiLetter (BitVec.ofNat 8 ch.toNat))
    (hr : (textWord text).getLsbD 13 = true) :
    textToTypeCode .strict text s =
      .next (.failed .reservedBitSet, (s.setTin (textWord text)).fail .reservedBitSet) := by
  have hl : AllLetters (s.setTin (textWord text)).tin := (allLetters_textWord h4).mpr fun ch hch => (h ch hch).2
  rw [textToTypeCode_of_exec (r := .strict) h4 (fun ch hch => (h ch hch).1) (exec_typeStrict_of_reserved hl hr)]
  rfl

theorem textToTypeCode_raw_of_not_letters (h4 : text.length = 4) (h : ∀ ch ∈ text, ch.toNat < 256)
    (hl : ∃ ch ∈ text, ¬ AsciiLetter (BitVec.ofNat 8 ch.toNat)) :
    textToTypeCode .raw text s =
      .next (.failed .invalidTypeByte, (s.setTin (textWord text)).fail .invalidTypeByte) := by
  have hnot : ¬ AllLetters (s.setTin (textWord text)).tin := by
    rw [State.setTin_tin, allLetters_textWord h4]
    push Not
    exact hl
  rw [textToTypeCode_of_exec (r := .raw) h4 h (exec_typeRaw_of_not_letters hnot)]
  rfl

end Text

/-! ### A chunk from a type code and payload bytes (R185) -/

/-- The state with the payload `b` loaded and the record of it and the held type code built. -/
def State.loadAndBuild (s : State) (b : List Byte) : State := (s.storePayload b).dropRecord.buildRecord

theorem hostLoadPay_of_fits {c : Config} {b : List Byte} (s : State) (h : b.length ≤ c.payCap) :
    hostLoadPay c b s = .next (s.storePayload b).dropRecord := if_pos h

theorem exec_recBuild_loaded {s : State} (b : List Byte) (htok : s.tok = true) :
    exec .recBuild (s.storePayload b).dropRecord = .next (s.loadAndBuild b) :=
  exec_recBuild_of_tok (s := (s.storePayload b).dropRecord) htok

theorem State.storePayload_payLen_toNat {c : Config} (s : State) {b : List Byte} (hc : c.wf = true)
    (hfit : b.length ≤ c.payCap) : (s.storePayload b).payLen.toNat = b.length :=
  toNat_ofNat_of_le hfit (Config.wf_bounds hc).2.2.2

section LoadAndBuild

variable {c : Config} {s : State} {b : List Byte} (hc : c.wf = true) (hpay : Memory.wf s.payMem)
  (hfit : b.length ≤ c.payCap)

include hc hpay hfit

theorem State.storePayload_payload : (s.storePayload b).payload = b :=
  Memory.slice_writeBytes_zero hpay b (s.storePayload_payLen_toNat hc hfit).symm

theorem State.loadAndBuild_crc : (s.loadAndBuild b).crc = crc32 (bytesBe32 s.typ ++ b) := by
  change crc32 ((s.storePayload b).typeBytes ++ (s.storePayload b).payload) = _
  rw [State.storePayload_payload hc hpay hfit]
  rfl

end LoadAndBuild

theorem buildFromText_of_typeCode {c : Config} {r : TypeRoute} {typ : List Char} {text : String} {s t : State}
    {v : Word} (hcode : textToTypeCode r typ s = .next (.typeCode v, t)) (htok : t.tok = true)
    (hfit : (utf8Bytes text).length ≤ c.payCap) :
    buildFromText c r typ text s = .next (.typeCode v, t.loadAndBuild (utf8Bytes text)) := by
  simp only [buildFromText, hcode, andThen_next, hostLoadPay_of_fits t hfit, exec_recBuild_loaded _ htok]

theorem buildFromText_of_failed {c : Config} {r : TypeRoute} {typ : List Char} {text : String} {s t : State}
    {e : ErrorName} (hcode : textToTypeCode r typ s = .next (.failed e, t)) :
    buildFromText c r typ text s = .next (.failed e, t) := by
  simp only [buildFromText, hcode, andThen_next]

/-! ### The sequence of chunks (R188 to R190) -/

section Sequence

variable {t : Word} {k : Chunk}

/-- Past chunks of other types the first of the type is removed. -/
theorem removeFirstChunk_append (hk : k.typ = t) (q : List Chunk) :
    ∀ {p : List Chunk}, (∀ j ∈ p, j.typ ≠ t) → removeFirstChunk t (p ++ k :: q) = .ok (k, p ++ q)
  | [], _ => if_pos hk
  | j :: p, hp => by
    obtain ⟨hj, hp⟩ := List.forall_mem_cons.mp hp
    rw [List.cons_append, removeFirstChunk, if_neg hj, removeFirstChunk_append hk q hp]
    rfl

theorem removeFirstChunk_of_missing :
    ∀ {seq : List Chunk}, (∀ j ∈ seq, j.typ ≠ t) → removeFirstChunk t seq = .error .chunkNotFound
  | [], _ => rfl
  | j :: seq, h => by
    obtain ⟨hj, h⟩ := List.forall_mem_cons.mp h
    rw [removeFirstChunk, if_neg hj, removeFirstChunk_of_missing h]

/-- A sequence has no chunk of the type, or a first one. -/
theorem missing_or_first (t : Word) (seq : List Chunk) :
    (∀ j ∈ seq, j.typ ≠ t) ∨ ∃ p k q, seq = p ++ k :: q ∧ k.typ = t ∧ ∀ j ∈ p, j.typ ≠ t := by
  induction seq with
  | nil => exact .inl nofun
  | cons j seq ih =>
    by_cases hj : j.typ = t
    · exact .inr ⟨[], j, seq, rfl, hj, nofun⟩
    rcases ih with hnone | ⟨p, k, q, rfl, hk, hp⟩
    · exact .inl (List.forall_mem_cons.mpr ⟨hj, hnone⟩)
    · exact .inr ⟨j :: p, k, q, rfl, hk, List.forall_mem_cons.mpr ⟨hj, hp⟩⟩

end Sequence

end Sys2Proof.Machine

namespace Sys2Proof.Claims

open Sys2Proof.Machine

/-- Settles O24: each property is one bit, which the exclusive-or flips where the mask has it; the mask's bytes are 0 or
the difference of the two cases of a letter. -/
theorem categoryBitsAreIndependent : Obligations.CategoryBitsAreIndependent := by
  intro v
  refine ⟨?byte0, ?byte1, ?byte2, ?byte3, fun m hm => allLetters_xor_case ?letters v⟩
  case letters =>
    simp only [List.mem_cons, List.not_mem_nil, or_false] at hm
    rcases hm with rfl | rfl | rfl | rfl <;> decide
  all_goals simp [isCritical_xor, isPublic_xor, rsvOk_xor, isSafeToCopy_xor]

/-- Settles O55: the host's own two answers, and what `TYPE.RAW` answers to the four bytes. -/
theorem textBecomesATypeCode : Obligations.TextBecomesATypeCode := by
  refine fun text s => ⟨fun hlong => if_pos hlong, fun h4 h => ?taken, fun h4 hbad => ?rejected⟩
  case taken =>
    exact ⟨_, _, textToTypeCode_of_letters h4 h (.inl rfl), rfl, rfl,
      renderAsText_textWord h4 fun ch hch => (h ch hch).1⟩
  case rejected =>
    by_cases hwide : ∃ ch ∈ text, 255 < ch.toNat
    · exact ⟨s, textToTypeCode_of_wide h4 hwide, rfl⟩
    · push Not at hwide
      obtain ⟨ch, hch, hnot⟩ := hbad
      have hfits : ∀ c ∈ text, c.toNat < 256 := fun c hc => Nat.lt_succ_of_le (hwide c hc)
      exact ⟨_, textToTypeCode_raw_of_not_letters h4 hfits ⟨ch, hch, fun hl => hnot ⟨hfits ch hch, hl⟩⟩, rfl⟩

/-- Settles O57: the route makes the letters the held type code, and the text's bytes become the record built; or the
strict route fails and nothing after it happens. -/
theorem textBuildsAChunk : Obligations.TextBuildsAChunk := by
  refine fun c r typ text s hc hpay h4 h hfit => ⟨fun hr => ?built, fun hr hres => ?rejected⟩
  case built =>
    exact ⟨_, buildFromText_of_typeCode (textToTypeCode_of_letters h4 h hr) rfl hfit, rfl,
      renderAsText_textWord h4 fun ch hch => (h ch hch).1, rfl, State.storePayload_payload hc hpay hfit,
      (s.setTin (textWord typ)).takeTypeCode.storePayload_payLen_toNat hc hfit, State.loadAndBuild_crc hc hpay hfit,
      rfl, rfl, State.commit_cleared _⟩
  case rejected =>
    subst hr
    exact ⟨_, buildFromText_of_failed (textToTypeCode_of_reserved h4 h hres), rfl, rfl, rfl, rfl, rfl, rfl⟩

/-- Settles O52: the search passes the earlier chunks and stops at the appended one. -/
theorem appendThenFindByType : Obligations.AppendThenFindByType := by
  intro seq k h
  rw [chunkByType, appendChunk, List.find?_append, List.find?_eq_none.mpr (by simpa using h)]
  simp

/-- Settles O53: a sequence has a first chunk of the type, which is removed, or none, which is the failure. -/
theorem removeTakesTheFirstOfItsType : Obligations.RemoveTakesTheFirstOfItsType := by
  intro seq t
  rcases missing_or_first t seq with hnone | ⟨p, k, q, rfl, hk, hp⟩
  · rw [removeFirstChunk_of_missing hnone]
    exact ⟨nofun, fun e => ⟨fun he => ⟨(Except.error.inj he).symm, hnone⟩, fun ⟨he, _⟩ => by rw [he]⟩⟩
  · rw [removeFirstChunk_append hk q hp]
    refine ⟨fun k' r h => ?_, fun e => ⟨nofun, fun ⟨_, hnone⟩ => absurd hk (hnone k (by simp))⟩⟩
    cases h
    exact ⟨p, q, rfl, rfl, hk, hp⟩

/-- Settles O54: the one chunk of the type is removed, and what remains has none. -/
theorem removeThenNotFound : Obligations.RemoveThenNotFound := by
  intro p q k h
  obtain ⟨hp, -⟩ := List.forall_mem_append.mp h
  exact ⟨removeFirstChunk_append rfl q hp, removeFirstChunk_of_missing h⟩

end Sys2Proof.Claims
end

section
/-! SUPPORT. The host actions (R172 to R177, R230) and the commands at reset (R232). -/

namespace Sys2Proof.Machine

open Sys2Proof.Claims

/-! ### Reads (R172, R176) -/

theorem State.ctrl_strict (s : State) : s.ctrl.getLsbD 0 = s.strict := by
  rw [State.ctrl, BitVec.getLsbD_append, if_pos (by decide)]
  simp

theorem State.ctrl_reserved (s : State) {k : Nat} (h : 1 ≤ k) : s.ctrl.getLsbD k = false := by
  rw [State.ctrl, BitVec.getLsbD_append, if_neg (by omega)]
  simp

theorem State.readReg_above (s : State) : ∀ {n : Nat}, 12 < n → s.readReg n = 0#32
  | _ + 13, _ => rfl

/-! ### Loads (R174, R175) -/

theorem State.storeInput_inLen_toNat {c : Config} (s : State) {b : List Byte} (hc : c.wf = true)
    (hfit : b.length ≤ c.inCap) : (s.storeInput b).inLen.toNat = b.length :=
  toNat_ofNat_of_le hfit (Config.wf_bounds hc).2.1

/-- All of the input just loaded is still to be consumed. -/
theorem State.storeInput_remaining {c : Config} {s : State} {b : List Byte} (hc : c.wf = true) (hin : Memory.wf s.inMem)
    (hfit : b.length ≤ c.inCap) : (s.storeInput b).remaining = b :=
  Memory.slice_writeBytes_zero hin b (s.storeInput_inLen_toNat hc hfit).symm

/-- Bytes beyond a load are as before. -/
theorem Memory.read_writeBytes_above {m : Memory} (b : List Byte) {a : Nat} (hm : Memory.wf m) (ha : b.length ≤ a) :
    (m.writeBytes 0 b).read a = m.read a :=
  Memory.read_writeBytes_of_not_mem b m 0 a hm (.inr (by omega))

theorem State.loadPay_statusKept (s : State) (b : List Byte) :
    StatusKept [8, 10, 11] s (s.storePayload b).dropRecord :=
  (s.storePayload b).dropRecord_frame.status

/-! ### The reset state (R30, R232) -/

theorem State.reset_not_allLetters : ¬ AllLetters State.reset.tin := by
  rw [← letters_eq_false_iff]
  decide

end Sys2Proof.Machine

namespace Sys2Proof.Claims

open Sys2Proof.Machine

/-- Settles O35: each register by its number, and the bits of `CTRL` one by one. -/
theorem hostReadGivesTheRegister : Obligations.HostReadGivesTheRegister :=
  fun _ s _ => ⟨_, rfl, rfl, rfl, rfl, rfl, rfl, rfl, rfl, rfl, rfl, rfl, rfl, rfl, rfl, rfl, rfl,
    s.readReg_above, s.ctrl_strict, fun _ => s.ctrl_reserved⟩

/-- Settles O36: a sequence that fits is read back from the storage it was written to. -/
theorem hostLoadInReplacesTheInput : Obligations.HostLoadInReplacesTheInput := by
  refine fun c s b hc hin => ⟨fun hfit => ⟨s.storeInput b, if_pos hfit, State.storeInput_remaining hc hin hfit,
    s.storeInput_inLen_toNat hc hfit, rfl, fun a => Memory.read_writeBytes_above b hin, s.storeInput_regs b,
    fun _ _ => rfl, fun _ => rfl, rfl, rfl, rfl⟩, fun hlong => if_neg (Nat.not_le.mpr hlong)⟩

/-- Settles O37: the same for `PAY`, and the three flags of the record dropped. -/
theorem hostLoadPayDropsTheRecord : Obligations.HostLoadPayDropsTheRecord := by
  refine fun c s b hc hpay => ⟨fun hfit => ⟨_, hostLoadPay_of_fits s hfit, State.storePayload_payload hc hpay hfit,
    s.storePayload_payLen_toNat hc hfit, rfl, rfl, rfl, fun a => Memory.read_writeBytes_above b hpay,
    s.loadPay_regs b, s.loadPay_statusKept b, fun _ => rfl, rfl, rfl, rfl⟩,
    fun hlong => if_neg (Nat.not_le.mpr hlong)⟩

/-- Settles O38: the payload read byte by byte; `OUT` is what is taken and what is left. -/
theorem hostReadsPayloadAndDrainsOutput : Obligations.HostReadsPayloadAndDrainsOutput := by
  refine fun c s => ⟨⟨_, rfl, by simp [s.payload_eq_payBytes], rfl⟩, fun k hk =>
    ⟨_, s.out.take k, if_pos hk, (List.take_append_drop k s.out).symm, List.length_take_of_le hk, rfl, rfl⟩⟩

/-- Settles O9: no register of either result depends on the state before it. -/
theorem hardwareResetIsSysResetWithoutOutput : Obligations.HardwareResetIsSysResetWithoutOutput :=
  fun _ _ => ⟨_, _, rfl, rfl, fun _ => rfl, fun _ => rfl, rfl, fun _ => rfl, fun _ => rfl, fun _ => rfl, fun _ => rfl,
    rfl, rfl⟩

/-- Settles O11: the commands without a condition, and each other one by what it misses at reset. -/
theorem eachCommandAtReset : Obligations.EachCommandAtReset := by
  have hshort : avail State.reset < 8 := by decide
  refine ⟨?succeed, failsWith_of_exec_eq (FailsBecause.parse (parseRecord_of_short hshort)).exec_eq,
    failsWith_of_exec_eq (FailsBecause.sigShort hshort).exec_eq,
    failsWith_of_exec_eq (FailsBecause.strictNotLetters State.reset_not_allLetters).exec_eq,
    failsWith_of_exec_eq (FailsBecause.rawNotLetters State.reset_not_allLetters).exec_eq,
    failsWith_of_exec_eq (FailsBecause.buildNoCode rfl).exec_eq,
    failsWith_of_exec_eq (FailsBecause.emitNoRecord rfl).exec_eq,
    failsWith_of_exec_eq (FailsBecause.verifyNoRecord rfl).exec_eq⟩
  case succeed =>
    rintro i (hi | ⟨b, rfl⟩)
    · simp only [List.mem_cons, List.not_mem_nil, or_false] at hi
      rcases hi with rfl | rfl | rfl | rfl | rfl | rfl | rfl <;> exact ⟨_, rfl, rfl, rfl⟩
    · exact ⟨_, rfl, rfl, rfl⟩

end Sys2Proof.Claims
end

section
/-! SUPPORT. Round trips (R145, R146, R164): what a parse makes of a record's own bytes, and what is emitted of a record
parsed. -/

namespace Sys2Proof.Machine

open Sys2Proof.Claims

/-! ### The bytes of a chunk, parsed -/

/-- The middle one of three parts. -/
theorem field_append_middle (a b c : List Byte) {o n : Nat} (ha : a.length = o) (hb : b.length = n) :
    field (a ++ (b ++ c)) o n = b := by
  simp [field, ← ha, ← hb]

theorem Chunk.wf_iff {k : Chunk} : k.wf = true ↔ k.pay.length = k.len.toNat ∧ AllLetters k.typ := by
  simp [Chunk.wf, letters_iff_allLetters]

theorem Chunk.bytes_length {k : Chunk} (hk : k.wf = true) : k.bytes.length = 12 + k.len.toNat := by
  obtain ⟨hpay, -⟩ := Chunk.wf_iff.mp hk
  simp only [Chunk.bytes, List.length_append, bytesBe32_length, hpay]
  omega

/-- What a parse finds in the bytes of a chunk. -/
def Chunk.parsed (k : Chunk) : Parsed :=
  ⟨k.len, k.typ, k.pay, k.crc, crcAcc Config.crcInit (bytesBe32 k.typ ++ k.pay), true, 12 + k.len.toNat⟩

/-- The chunk may be taken: outside `STRICT` always, under it with its computed checksum (R141 step 5). -/
def Chunk.acceptable (strict : Bool) (k : Chunk) : Prop := strict = false ∨ k.crc = k.computed

/-- The bytes of a chunk, whatever follows them, parse as the chunk. -/
theorem parseRecord_chunk {strict : Bool} {k : Chunk} (hk : k.wf = true) (hsum : k.acceptable strict)
    (rest : List Byte) : parseRecord strict (k.bytes ++ rest) = .ok k.parsed := by
  obtain ⟨hpay, hl⟩ := Chunk.wf_iff.mp hk
  have hlen : (k.bytes ++ rest).length = 12 + k.len.toNat + rest.length := by
    rw [List.length_append, Chunk.bytes_length hk]
  have hbytes : k.bytes ++ rest =
      bytesBe32 k.len ++ (bytesBe32 k.typ ++ (k.pay ++ (bytesBe32 k.crc ++ rest))) := by
    simp [Chunk.bytes]
  have hlenField : field (k.bytes ++ rest) 0 4 = bytesBe32 k.len := by
    rw [hbytes]
    exact field_append_middle [] (bytesBe32 k.len) _ rfl rfl
  have htype : field (k.bytes ++ rest) 4 4 = bytesBe32 k.typ := by
    rw [hbytes]
    exact field_append_middle _ _ _ rfl rfl
  have hpayload : field (k.bytes ++ rest) 8 k.len.toNat = k.pay := by
    rw [hbytes, ← List.append_assoc]
    exact field_append_middle _ _ _ rfl hpay
  have hhead : (bytesBe32 k.len ++ bytesBe32 k.typ ++ k.pay).length = 8 + k.len.toNat := by
    rw [List.length_append, hpay]
    rfl
  have hcrc : field (k.bytes ++ rest) (8 + k.len.toNat) 4 = bytesBe32 k.crc := by
    rw [hbytes, ← List.append_assoc, ← List.append_assoc]
    exact field_append_middle _ _ _ hhead rfl
  have hmismatch : ¬ (strict = true ∧ k.crc ≠ k.computed) := by
    rintro ⟨hs, hne⟩
    exact hsum.elim (fun h => Bool.false_ne_true (h.symm.trans hs)) hne
  unfold parseRecord
  dsimp only
  rw [hlen, hlenField, htype, be32_bytesBe32, be32_bytesBe32, hpayload, hcrc, be32_bytesBe32]
  rw [if_neg (by omega), if_neg (letters_ne_false hl), if_neg (by omega)]
  exact (if_pos (by omega)).trans (if_neg hmismatch)

/-! ### The input after a parse or a signature -/

theorem Memory.slice_drop (m : Memory) (a : Nat) {n k : Nat} (h : k ≤ n) :
    (m.slice a n).drop k = m.slice (a + k) (n - k) := by
  obtain ⟨j, rfl⟩ := Nat.exists_eq_add_of_le h
  rw [Memory.slice_append, Nat.add_sub_cancel_left, List.drop_left' (Memory.slice_length ..)]

theorem State.advance_remaining {s : State} {n : Nat} (h : n ≤ avail s) :
    (s.advance n).remaining = s.remaining.drop n := by
  have hsub : s.inLen.toNat - (s.rp.toNat + n) = s.inLen.toNat - s.rp.toNat - n := by omega
  rw [State.remaining, State.advance_rp_toNat h, State.advance_inMem, State.advance_inLen, hsub, State.remaining,
    Memory.slice_drop _ _ (show n ≤ s.inLen.toNat - s.rp.toNat from h)]

theorem State.commitParse_remaining {s : State} {r : Parsed} (h : parseRecord s.strict s.remaining = .ok r) :
    (s.commitParse r).remaining = s.remaining.drop r.used :=
  State.advance_remaining (parseRecord_used_le h)

/-- Where nothing is left of the input, `RP` is `IN_LEN` (I-a). -/
theorem State.rp_eq_inLen {s : State} (hle : s.rp.toNat ≤ s.inLen.toNat) (h : avail s = 0) : s.rp = s.inLen := by
  rw [avail] at h
  exact BitVec.eq_of_toNat_eq (by omega)

theorem avail_of_rp_eq {s : State} (h : s.rp = s.inLen) : avail s = 0 := by
  rw [avail, h, Nat.sub_self]

/-! ### A state that holds a chunk -/

/-- The chunk is the held record, its payload all of the valid part of `PAY` (I-c). -/
structure HoldsChunk (k : Chunk) (s : State) : Prop where
  held : s.held = true
  chunk : s.heldChunk = k
  len : s.len = s.payLen

theorem HoldsChunk.recordBytes {k : Chunk} {s : State} (h : HoldsChunk k s) : s.recordBytes = k.bytes := by
  rw [← h.chunk, State.recordBytes, State.heldPayload, h.len, ← State.payload, State.typeBytes, ← h.len]
  rfl

theorem HoldsChunk.exec_recEmit {k : Chunk} {s : State} (h : HoldsChunk k s) :
    exec .recEmit s = .next (s.emit k.bytes).commit := by
  rw [← h.recordBytes]
  exact exec_recEmit_of_held h.held

/-- A parse holds the chunk it found. -/
theorem State.commitParse_holdsChunk {s : State} {r : Parsed} (hparse : parseRecord s.strict s.remaining = .ok r)
    (hpay : Memory.wf s.payMem) : HoldsChunk ⟨r.len, r.typ, r.pay, r.crc⟩ (s.commitParse r) where
  held := rfl
  chunk := by
    have hpayload : (s.commitParse r).payload = r.pay := by
      rw [State.payload, State.commitParse_payLen hparse]
      exact State.commitParse_heldPayload hparse hpay
    rw [State.heldChunk, hpayload]
    rfl
  len := (State.commitParse_payLen hparse).symm

/-- Parsing the bytes of a chunk holds that chunk, and leaves what follows it in the input. -/
theorem exec_recParse_chunk {s : State} {k : Chunk} {rest : List Byte} (hk : k.wf = true)
    (hsum : k.acceptable s.strict) (hpay : Memory.wf s.payMem) (hrest : s.remaining = k.bytes ++ rest) :
    exec .recParse s = .next (s.commitParse k.parsed) ∧ HoldsChunk k (s.commitParse k.parsed) ∧
      (s.commitParse k.parsed).remaining = rest ∧ (s.commitParse k.parsed).rp.toNat ≤ s.inLen.toNat := by
  have hparse : parseRecord s.strict s.remaining = .ok k.parsed := by
    rw [hrest]
    exact parseRecord_chunk hk hsum rest
  refine ⟨exec_recParse_of_ok hparse, State.commitParse_holdsChunk hparse hpay, ?_, State.commitParse_rp_le hparse⟩
  rw [State.commitParse_remaining hparse, hrest]
  exact List.drop_left' (Chunk.bytes_length hk)

/-! ### The record that was parsed, byte by byte (R146) -/

section ParsedBytes

variable {s : State} {r : Parsed} (hparse : parseRecord s.strict s.remaining = .ok r)

theorem State.field_remaining_eq_slice {o n : Nat} (h : o + n ≤ avail s) :
    field s.remaining o n = s.inMem.slice (s.rp.toNat + o) n :=
  Memory.field_slice _ _ _ _ _ h

theorem State.bytesBe32_field_remaining {o : Nat} (h : o + 4 ≤ avail s) :
    bytesBe32 (be32 (field s.remaining o 4)) = s.inMem.slice (s.rp.toNat + o) 4 := by
  rw [bytesBe32_be32 _ (by rw [field_length, State.remaining_length]; omega), State.field_remaining_eq_slice h]

include hparse

/-- Length, type and payload are emitted as they were read. -/
theorem Parsed.head_eq_slice :
    bytesBe32 r.len ++ bytesBe32 r.typ ++ r.pay = s.inMem.slice s.rp.toNat (8 + r.len.toNat) := by
  have hused := parseRecord_used_le hparse
  have hlow := (parseRecord_used hparse).1
  obtain ⟨-, -, hlen, htyp, -, hpay, -⟩ := parseRecord_ok hparse
  have hlenBytes : bytesBe32 r.len = s.inMem.slice s.rp.toNat 4 := by
    rw [hlen]
    exact State.bytesBe32_field_remaining (by omega)
  have htypBytes : bytesBe32 r.typ = s.inMem.slice (s.rp.toNat + 4) 4 := by
    rw [htyp]
    exact State.bytesBe32_field_remaining (by omega)
  have hpayBytes : r.pay = s.inMem.slice (s.rp.toNat + 8) r.len.toNat := by
    rw [hpay]
    exact State.field_remaining_eq_slice (by omega)
  rw [hlenBytes, htypBytes, hpayBytes, Memory.slice_append _ _ 8, Memory.slice_append _ _ 4 4]

/-- A checksum read from the input is emitted as it was read. -/
theorem Parsed.crc_eq_slice (hsrc : r.csrc = true) :
    bytesBe32 r.crc = s.inMem.slice (s.rp.toNat + (8 + r.len.toNat)) 4 := by
  obtain ⟨-, -, -, -, -, -, -, ⟨hfour, hcrc, -⟩ | ⟨-, -, hnone, -⟩⟩ := parseRecord_ok hparse
  · rw [State.remaining_length] at hfour
    rw [hcrc]
    exact State.bytesBe32_field_remaining (by omega)
  · exact absurd (hsrc.symm.trans hnone) nofun

/-- Without a checksum in the input the one held is computed over the type bytes and payload read. -/
theorem Parsed.crc_eq_crc32 (hsrc : r.csrc = false) :
    r.crc = crc32 (s.inMem.slice (s.rp.toNat + 4) (4 + r.len.toNat)) := by
  have hused := parseRecord_used_le hparse
  have hlow := (parseRecord_used hparse).1
  obtain ⟨-, -, -, -, -, hpay, hacc, ⟨-, -, hfound, -⟩ | ⟨-, hcrc, -⟩⟩ := parseRecord_ok hparse
  · exact absurd (hfound.symm.trans hsrc) nofun
  · rw [hcrc, hacc, crc32_eq, hpay, State.field_remaining_eq_slice (by omega),
      State.field_remaining_eq_slice (by omega), Memory.slice_append]

end ParsedBytes

end Sys2Proof.Machine

namespace Sys2Proof.Claims

open Sys2Proof.Machine

/-- Settles O29: what is emitted of the record parsed is what was read, and the checksum read or computed. -/
theorem parseEmitRoundTrip : Obligations.ParseEmitRoundTrip := by
  intro s t hpay hexec herr
  obtain ⟨r, hparse, rfl⟩ := (exec_eq_next_iff.mp hexec).eq_commitParse herr
  have hrecord := (State.commitParse_holdsChunk hparse hpay).recordBytes
  refine ⟨_, exec_recEmit_of_held rfl, fun hsrc => ?_, fun hsrc => ?_⟩
  · rw [State.commit_out, State.emit_out, hrecord, Chunk.bytes, Parsed.head_eq_slice hparse,
      Parsed.crc_eq_slice hparse hsrc, ← Memory.slice_append, Nat.add_right_comm]
    rfl
  · rw [State.commit_out, State.emit_out, hrecord, Chunk.bytes, Parsed.head_eq_slice hparse,
      Parsed.crc_eq_crc32 hparse hsrc]
    rfl

/-- Settles O28: the record built is a chunk with its computed checksum, and its bytes are the whole input loaded. -/
theorem buildEmitParseRoundTrip : Obligations.BuildEmitParseRoundTrip := by
  intro c s strict hc hinv htok hfit
  set t := s.buildRecord
  set k := t.heldChunk
  have hholds : HoldsChunk k t := ⟨rfl, rfl, rfl⟩
  have hl : AllLetters k.typ := fun i => (isLetter_iff _).mp (hinv.tok_letters htok i)
  have hk : k.wf = true := Chunk.wf_iff.mpr ⟨Memory.slice_length .., hl⟩
  have hcap : k.bytes.length ≤ c.inCap := by rwa [Chunk.bytes_length hk]
  set u := (t.emit k.bytes).commit
  have hout : u.out.drop s.out.length = k.bytes := List.drop_left
  set v := (u.storeInput k.bytes).setStrict strict
  have hrest : v.remaining = k.bytes ++ [] := by
    rw [List.append_nil]
    exact State.storeInput_remaining hc hinv.in_wf hcap
  obtain ⟨hexec, hagain, hend, hrp⟩ := exec_recParse_chunk (s := v) hk (.inr rfl) hinv.pay_wf hrest
  refine ⟨t, u, u.storeInput k.bytes, v.commitParse k.parsed, exec_recBuild_of_tok htok, hholds.exec_recEmit, ?load,
    hexec, rfl, rfl, rfl, ?payload, rfl, rfl, ?crcok, State.rp_eq_inLen hrp ?ended⟩
  case load =>
    rw [hout]
    exact if_pos hcap
  case payload =>
    have hpayload : (v.commitParse k.parsed).payload = k.pay := congrArg Chunk.pay hagain.chunk
    rw [State.heldPayload, hagain.len]
    exact hpayload
  case crcok => exact decide_eq_true rfl
  case ended => rw [← State.remaining_length, hend, List.length_nil]

end Sys2Proof.Claims
end

section
/-! SUPPORT. The stream procedures (R162 to R164): what they do after the signature, that the parsing loop ends, and that
it undoes the emission. -/

namespace Sys2Proof.Machine

open Sys2Proof.Claims

/-! ### The signature of a buffer (R160, R162) -/

/-- The 8 bytes at `RP` are the first of the input not yet consumed. -/
theorem recBytes_eq_take {s : State} (h8 : 8 ≤ avail s) :
    (List.range 8).map (recByte s) = s.remaining.take 8 := by
  have hfield : field s.remaining 0 8 = _ := State.field_remaining (by omega)
  simpa [field] using hfield.symm

theorem length_of_signature {b : List Byte} (h : b.take 8 = Config.signature) : 8 ≤ b.length := by
  have hlen := congrArg List.length h
  rw [List.length_take, Config.signature_length] at hlen
  omega

/-- What `STREAM.PARSE` finds of a buffer with the signature: the buffer loaded and its first 8 bytes consumed. -/
def State.afterSignature (s : State) (b : List Byte) : State := ((s.storeInput b).advance 8).commit

section Buffer

variable {c : Config} {s : State} {b : List Byte} (hc : c.wf = true) (hin : Memory.wf s.inMem)
  (hfit : b.length ≤ c.inCap)

include hc hin hfit

theorem avail_storeInput : avail (s.storeInput b) = b.length := by
  rw [← State.remaining_length, State.storeInput_remaining hc hin hfit]

theorem streamParse_of_signature (hsig : b.take 8 = Config.signature) :
    streamParse c b s = streamLoop b.length [] (s.afterSignature b) := by
  have h8 := length_of_signature hsig
  have havail : 8 ≤ avail (s.storeInput b) := (avail_storeInput hc hin hfit).symm ▸ h8
  have hexec : exec .sigCheck (s.storeInput b) = .next (s.afterSignature b) := by
    rw [exec_sigCheck_of_avail havail, recBytes_eq_take havail, State.storeInput_remaining hc hin hfit,
      if_neg (not_not_intro hsig)]
    rfl
  have hload : hostLoadIn c b s = .next (s.storeInput b) := if_pos hfit
  simp only [streamParse, hload, andThen_next, hexec]
  exact if_pos rfl

theorem streamParse_of_no_signature (hsig : b.take 8 ≠ Config.signature) :
    streamParse c b s = .next (.badSignature, (s.storeInput b).fail .badSignature) := by
  have hload : hostLoadIn c b s = .next (s.storeInput b) := if_pos hfit
  have hexec : exec .sigCheck (s.storeInput b) = .next ((s.storeInput b).fail .badSignature) := by
    by_cases h8 : 8 ≤ avail (s.storeInput b)
    · rw [exec_sigCheck_of_avail h8, recBytes_eq_take h8, State.storeInput_remaining hc hin hfit, if_pos hsig]
    · exact exec_sigCheck_of_short (Nat.not_le.mp h8)
  simp only [streamParse, hload, andThen_next, hexec]
  rfl

theorem State.afterSignature_remaining (h8 : 8 ≤ b.length) : (s.afterSignature b).remaining = b.drop 8 := by
  have havail : 8 ≤ avail (s.storeInput b) := (avail_storeInput hc hin hfit).symm ▸ h8
  exact (State.advance_remaining havail).trans (by rw [State.storeInput_remaining hc hin hfit])

theorem State.afterSignature_rp_le (h8 : 8 ≤ b.length) :
    (s.afterSignature b).rp.toNat ≤ (s.afterSignature b).inLen.toNat := by
  have havail : 8 ≤ avail (s.storeInput b) := (avail_storeInput hc hin hfit).symm ▸ h8
  have hrp : (s.afterSignature b).rp.toNat = (s.storeInput b).rp.toNat + 8 := State.advance_rp_toNat havail
  rw [hrp]
  exact rp_add_avail havail (by decide)

end Buffer

/-! ### The loop of `STREAM.PARSE` (R162) -/

section Loop

variable {s : State} {fuel : Nat} {seq : List Chunk}

theorem streamLoop_of_end (h : s.rp = s.inLen) : streamLoop fuel seq s = .next (.parsed seq, s) := by
  cases fuel <;> exact if_pos h

/-- One pass that takes a record. -/
theorem streamLoop_of_parse {r : Parsed} (h : s.rp ≠ s.inLen) (hexec : exec .recParse s = .next (s.commitParse r)) :
    streamLoop (fuel + 1) seq s =
      streamLoop fuel (seq ++ [(s.commitParse r).heldChunk]) (s.commitParse r) := by
  rw [streamLoop, if_neg h, hexec, andThen_next]
  exact if_pos rfl

/-- A pass whose record is rejected is the last. -/
theorem streamLoop_of_fail {f : Failure} (h : s.rp ≠ s.inLen) (hexec : exec .recParse s = .next (s.fail f)) :
    streamLoop (fuel + 1) seq s = .next (.malformedChunk s.rp f.name.code f.causeCode, s.fail f) := by
  rw [streamLoop, if_neg h, hexec, andThen_next]
  exact if_neg f.name.code_ne_zero

/-- Every pass takes at least 8 bytes, so as many passes as there are bytes are enough (log 13). -/
theorem streamLoop_ends : ∀ {fuel : Nat} {s : State} {seq : List Chunk}, s.rp.toNat ≤ s.inLen.toNat → avail s ≤ fuel →
    ∃ r t, streamLoop fuel seq s = .next (r, t) ∧ r ≠ .unfinished ∧ r ≠ .badSignature
  | 0, s, seq, hle, hfuel => by
    have hend : s.rp = s.inLen := State.rp_eq_inLen hle (by omega)
    exact ⟨_, _, streamLoop_of_end hend, nofun, nofun⟩
  | fuel + 1, s, seq, hle, hfuel => by
    by_cases hend : s.rp = s.inLen
    · exact ⟨_, _, streamLoop_of_end hend, nofun, nofun⟩
    cases hparse : parseRecord s.strict s.remaining with
    | error f => exact ⟨_, _, streamLoop_of_fail hend (exec_recParse_of_error hparse), nofun, nofun⟩
    | ok r =>
      rw [streamLoop_of_parse hend (exec_recParse_of_ok hparse)]
      refine streamLoop_ends (State.commitParse_rp_le hparse) ?_
      have hlow := (parseRecord_used hparse).1
      rw [← State.remaining_length, State.commitParse_remaining hparse, List.length_drop, State.remaining_length]
      omega

end Loop

/-! ### Parsing the records of a sequence (R164) -/

theorem length_le_flatMap_bytes (seq : List Chunk) : seq.length ≤ (seq.flatMap Chunk.bytes).length := by
  induction seq with
  | nil => exact Nat.zero_le _
  | cons k seq ih =>
    have hbytes : 4 ≤ k.bytes.length := by
      simp only [Chunk.bytes, List.length_append, bytesBe32_length]
      omega
    rw [List.flatMap_cons, List.length_append, List.length_cons]
    omega

/-- The loop takes the records of a sequence one by one, in order. -/
theorem streamLoop_chunks : ∀ {seq : List Chunk} {fuel : Nat} {done : List Chunk} {s : State},
    (∀ k ∈ seq, k.wf = true ∧ k.acceptable s.strict) → s.remaining = seq.flatMap Chunk.bytes →
    s.rp.toNat ≤ s.inLen.toNat → Memory.wf s.payMem → seq.length ≤ fuel →
    ∃ u, streamLoop fuel done s = .next (.parsed (done ++ seq), u)
  | [], fuel, done, s, _, hrest, hle, _, _ => by
    have hend : s.rp = s.inLen := State.rp_eq_inLen hle (by rw [← State.remaining_length, hrest]; rfl)
    exact ⟨s, by rw [streamLoop_of_end hend, List.append_nil]⟩
  | k :: seq, fuel + 1, done, s, hseq, hrest, hle, hpay, hfuel => by
    obtain ⟨⟨hk, hsum⟩, hseq⟩ := List.forall_mem_cons.mp hseq
    obtain ⟨hexec, hholds, hrest', hle'⟩ := exec_recParse_chunk hk hsum hpay hrest
    have hgo : s.rp ≠ s.inLen := by
      intro hend
      have hnone := avail_of_rp_eq hend
      rw [← State.remaining_length, hrest, List.flatMap_cons, List.length_append, Chunk.bytes_length hk] at hnone
      omega
    rw [streamLoop_of_parse hgo hexec, hholds.chunk, List.append_cons done k seq]
    exact streamLoop_chunks (s := s.commitParse k.parsed) hseq hrest' hle'
      (Memory.writeBytes_wf k.pay s.payMem 0 hpay) (Nat.le_of_succ_le_succ hfuel)

/-! ### Emitting a sequence (R163) -/

section Emit

variable {c : Config} (hc : c.wf = true)

include hc

/-- Through `REC.BUILD`: the chunk's type code taken, its payload loaded and the record built. -/
theorem holdChunk_of_computed {k : Chunk} {s : State} (hk : k.wf = true) (hsum : k.crc = k.computed)
    (hpay : Memory.wf s.payMem) (hfit : k.pay.length ≤ c.payCap) :
    holdChunk c k s = .next ((s.setTin k.typ).takeTypeCode.loadAndBuild k.pay) ∧
      HoldsChunk k ((s.setTin k.typ).takeTypeCode.loadAndBuild k.pay) := by
  obtain ⟨hlen, hl⟩ := Chunk.wf_iff.mp hk
  set u := (s.setTin k.typ).takeTypeCode
  have htype : exec .typeRaw (s.setTin k.typ) = .next u := exec_typeRaw_of_letters hl
  have hwrite : hostWriteReg 3 k.typ s = .next (s.setTin k.typ) := rfl
  constructor
  · rw [holdChunk, if_pos hsum, hwrite, andThen_next, htype, andThen_next, hostLoadPay_of_fits u hfit, andThen_next]
    exact exec_recBuild_loaded k.pay rfl
  · refine ⟨rfl, ?_, rfl⟩
    have hlenField : (u.loadAndBuild k.pay).len = k.len :=
      BitVec.eq_of_toNat_eq ((u.storePayload_payLen_toNat hc hfit).trans hlen)
    have hpayload : (u.loadAndBuild k.pay).payload = k.pay := State.storePayload_payload hc hpay hfit
    have hcrc : (u.loadAndBuild k.pay).crc = k.crc := (State.loadAndBuild_crc (s := u) hc hpay hfit).trans hsum.symm
    rw [State.heldChunk, hlenField, hpayload, hcrc]
    rfl

/-- Through `REC.PARSE` outside `STRICT`: the chunk's bytes loaded and parsed. -/
theorem holdChunk_of_other_sum {k : Chunk} {s : State} (hk : k.wf = true) (hsum : k.crc ≠ k.computed)
    (hin : Memory.wf s.inMem) (hpay : Memory.wf s.payMem) (hfit : k.bytes.length ≤ c.inCap) :
    holdChunk c k s = .next (((s.setStrict false).storeInput k.bytes).commitParse k.parsed) ∧
      HoldsChunk k (((s.setStrict false).storeInput k.bytes).commitParse k.parsed) := by
  have hrest : ((s.setStrict false).storeInput k.bytes).remaining = k.bytes ++ [] := by
    rw [List.append_nil]
    exact State.storeInput_remaining hc hin hfit
  obtain ⟨hexec, hholds, -, -⟩ :=
    exec_recParse_chunk (s := (s.setStrict false).storeInput k.bytes) hk (.inl rfl) hpay hrest
  have hload : hostLoadIn c k.bytes (s.setStrict false) = .next ((s.setStrict false).storeInput k.bytes) := if_pos hfit
  have hwrite : hostWriteReg 2 0#32 s = .next (s.setStrict false) := rfl
  rw [holdChunk, if_neg hsum, hwrite, andThen_next, hload, andThen_next]
  exact ⟨hexec, hholds⟩

/-- A chunk whose record fits `IN` can be held, by one of the two ways. -/
theorem holdChunk_holds {k : Chunk} {s : State} (hk : k.wf = true) (hin : Memory.wf s.inMem) (hpay : Memory.wf s.payMem)
    (hfit : 8 + k.bytes.length ≤ c.inCap) :
    ∃ t, holdChunk c k s = .next t ∧ HoldsChunk k t ∧ t.out = s.out ∧ Memory.wf t.inMem ∧ Memory.wf t.payMem := by
  obtain ⟨hlen, -⟩ := Chunk.wf_iff.mp hk
  obtain ⟨-, -, hcap, -⟩ := Config.wf_bounds hc
  have hbytes := Chunk.bytes_length hk
  by_cases hsum : k.crc = k.computed
  · obtain ⟨hhold, hholds⟩ := holdChunk_of_computed hc hk hsum hpay (by omega)
    exact ⟨_, hhold, hholds, rfl, hin, Memory.writeBytes_wf k.pay s.payMem 0 hpay⟩
  · obtain ⟨hhold, hholds⟩ := holdChunk_of_other_sum hc hk hsum hin hpay (by omega)
    exact ⟨_, hhold, hholds, rfl, Memory.writeBytes_wf k.bytes s.inMem 0 hin,
      Memory.writeBytes_wf k.pay s.payMem 0 hpay⟩

theorem emitChunks_out : ∀ {seq : List Chunk} {s : State}, (∀ k ∈ seq, k.wf = true) → Memory.wf s.inMem →
    Memory.wf s.payMem → 8 + (seq.flatMap Chunk.bytes).length ≤ c.inCap →
    ∃ t, emitChunks c seq s = .next t ∧ t.out = s.out ++ seq.flatMap Chunk.bytes
  | [], s, _, _, _, _ => ⟨s, rfl, by simp⟩
  | k :: seq, s, hseq, hin, hpay, hfit => by
    obtain ⟨hk, hseq⟩ := List.forall_mem_cons.mp hseq
    rw [List.flatMap_cons, List.length_append] at hfit
    obtain ⟨t, hhold, hholds, hout, hin', hpay'⟩ := holdChunk_holds hc hk hin hpay (by omega)
    obtain ⟨u, hemit, hout'⟩ := emitChunks_out (s := (t.emit k.bytes).commit) hseq hin' hpay' (by omega)
    refine ⟨u, ?_, ?_⟩
    · rw [emitChunks, hhold, andThen_next, hholds.exec_recEmit, andThen_next, hemit]
    · rw [hout', State.commit_out, State.emit_out, hout, List.flatMap_cons, List.append_assoc]

end Emit

theorem streamBytes_length (seq : List Chunk) : (streamBytes seq).length = 8 + (seq.flatMap Chunk.bytes).length := by
  rw [streamBytes, List.length_append, Config.signature_length]

end Sys2Proof.Machine

namespace Sys2Proof.Claims

open Sys2Proof.Machine

/-- Settles O33: without the signature nothing is parsed; with it the loop ends, and not in `BadSignature`. -/
theorem streamParseEnds : Obligations.StreamParseEnds := by
  intro c b s hc hin hfit
  by_cases hsig : b.take 8 = Config.signature
  · have h8 := length_of_signature hsig
    have hle := State.afterSignature_rp_le hc hin hfit h8
    have hfuel : avail (s.afterSignature b) ≤ b.length := by
      rw [← State.remaining_length, State.afterSignature_remaining hc hin hfit h8, List.length_drop]
      exact Nat.sub_le _ _
    obtain ⟨r, t, hloop, hfinished, hgood⟩ := streamLoop_ends (seq := []) hle hfuel
    exact ⟨r, t, (streamParse_of_signature hc hin hfit hsig).trans hloop, hfinished,
      iff_of_false hgood (not_not_intro hsig)⟩
  · exact ⟨_, _, streamParse_of_no_signature hc hin hfit hsig, nofun, iff_of_true rfl hsig⟩

/-- Settles O32: each chunk is held and its bytes appended; the loop then takes them one by one. -/
theorem streamRoundTrip : Obligations.StreamRoundTrip := by
  intro c seq s hc hin hpay hseq hfit
  have hlen := streamBytes_length seq
  obtain ⟨t, hemit, hout⟩ := emitChunks_out (s := (s.emit Config.signature).commit) hc hseq hin hpay (by omega)
  refine ⟨t, hemit, ?_, fun v hvin hvpay haccept => ?_⟩
  · rw [hout, State.commit_out, State.emit_out, List.append_assoc, streamBytes]
  · have h8 : 8 ≤ (streamBytes seq).length := by omega
    rw [streamParse_of_signature hc hvin hfit rfl]
    refine streamLoop_chunks (s := v.afterSignature (streamBytes seq)) (fun k hk => ⟨hseq k hk, ?_⟩) ?_
      (State.afterSignature_rp_le hc hvin hfit h8) hvpay ?_
    · exact haccept.imp id fun hall => hall k hk
    · exact State.afterSignature_remaining hc hvin hfit h8
    · exact (length_le_flatMap_bytes seq).trans (by omega)

end Sys2Proof.Claims
end
